-- ==== Sys2Proof/Word.lean ====
section
/-! DEFINITION. The widths of the link block's values (spec/00_scope.md R9, R15, R16; spec/10_state.md). -/

namespace Sys2Proof

/-- A byte of a wire image or a buffer, a node address, an `id`, a `flags` byte (00_scope.md R9). -/
abbrev Byte := BitVec 8

/-- A 16-bit value: the sync word, the CRC register, a CRC (00_scope.md R9). -/
abbrev Half := BitVec 16

/-- A 32-bit register word or command word (20_memory.md R81, 30_encoding.md R110). -/
abbrev Word := BitVec 32

/-- A signal-strength reading. RSSI_W is a parameter of at most 15 (00_scope.md R15), so a reading is
held in 15 bits whose bits from RSSI_W up are 0 (log 11). -/
abbrev Rssi := BitVec 15

/-- A tick count. T_W is a parameter of at most 32 (00_scope.md R14), so a tick count is held in 32 bits
whose bits from T_W up are 0 (log 11). -/
abbrev Ticks := BitVec 32

end Sys2Proof
end

