-- ==== Sys2Proof/Syntax.lean ====
section
/-! DEFINITION. The commands (one constructor per row of spec/opcode_table.json; spec/30_encoding.md
R110 to R116), the frame value (R120), and an assembler line (R116). -/

namespace Sys2Proof

/-- A command: an operation selected by a write to CMD (30_encoding.md R110, R114). Operands that do not
lie in the command word are read from the data registers (R113) and do not appear here. -/
inductive Instr where
  /-- NOP (R300). -/
  | nop
  /-- CRC_INIT (R152). -/
  | crcInit
  /-- CRC_BYTE byte: A8 is the data byte (R153). -/
  | crcByte (byte : Byte)
  /-- CRC_CHECK (R154). -/
  | crcCheck
  /-- SET_ADDR self, promiscuous: A8 and B8[0] (R203). -/
  | setAddr (self : Byte) (promiscuous : Bool)
  /-- SET_SYNC (R205). -/
  | setSync
  /-- ENCODE (R172). -/
  | encode
  /-- DECODE (R176). -/
  | decode
  /-- FILTER (R201). -/
  | filter
  /-- SEND_RELIABLE dest, maxRetries: A8 and B8 (R221). -/
  | sendReliable (dest maxRetries : Byte)
  /-- SEND_UNRELIABLE dest: A8 (R224). -/
  | sendUnreliable (dest : Byte)
  /-- STOP (R301). -/
  | stop
  /-- RXQ_POP (R270). -/
  | rxqPop
deriving DecidableEq, Repr

/-- Why a 32-bit word is no command (R112, R115). -/
inductive IllegalWord where
  /-- The OP field [7:0] is no opcode of the table. -/
  | unassignedOp
  /-- The OP field is an opcode, and a bit that its row's mask covers outside OP is 1. -/
  | reservedBits
deriving DecidableEq, Repr

/-- What the command decoder answers: exactly one command, or illegal (R112). -/
inductive Decoded where
  | command (i : Instr)
  | illegal (why : IllegalWord)
deriving DecidableEq, Repr

/-- A frame as a value (R120): the header bytes, the Length byte and the payload. -/
structure Frame where
  toAddr : Byte
  fromAddr : Byte
  id : Byte
  flags : Byte
  len : Byte
  payload : List Byte
deriving DecidableEq, Repr

/-- The errors of `decode`, in their priority order (41_codec.md R174). -/
inductive DecodeError where
  | invalidSync
  | lengthMismatch
  | crcMismatch
deriving DecidableEq, Repr

/-- What `decode` returns: a frame or one `DecodeError` (41_codec.md R174). -/
inductive FrameResult where
  | frame (f : Frame)
  | error (e : DecodeError)
deriving DecidableEq, Repr

/-- What `encode` returns: the wire image, or the one error it has (41_codec.md R170, R171). -/
inductive EncodeResult where
  | image (bytes : List Byte)
  | payloadTooLong
deriving DecidableEq, Repr

/-- One line of the assembler syntax: a mnemonic and its operands, which are numbers (R116). -/
structure AsmLine where
  mnemonic : String
  operands : List Nat
deriving DecidableEq, Repr

end Sys2Proof
end

