-- ==== Sys2Proof/Decode.lean ====
section
/-! DEFINITION. The command decoder, total on every 32-bit value (spec/30_encoding.md R111, R112, R114,
R115), the encoder, the byte lanes of a command word (spec/20_memory.md R85), and the assembler (R116). -/

namespace Sys2Proof

/-- One row of the opcode map: its match and mask values, and the command it stands for, given the
fields A8 = [15:8] and B8 = [23:16] (R111, R114). -/
structure OpcodeRow where
  mnemonic : String
  value : Word
  mask : Word
  build : Byte → Byte → Instr

/-- The opcode map (R114). -/
def opcodeTable : List OpcodeRow :=
  [ ⟨"NOP",             0x00000000#32, 0xFFFFFFFF#32, fun _ _ => .nop⟩,
    ⟨"CRC_INIT",        0x00000001#32, 0xFFFFFFFF#32, fun _ _ => .crcInit⟩,
    ⟨"CRC_BYTE",        0x00000002#32, 0xFFFF00FF#32, fun a8 _ => .crcByte a8⟩,
    ⟨"CRC_CHECK",       0x00000003#32, 0xFFFFFFFF#32, fun _ _ => .crcCheck⟩,
    ⟨"SET_ADDR",        0x00000010#32, 0xFFFE00FF#32, fun a8 b8 => .setAddr a8 (b8.getLsbD 0)⟩,
    ⟨"SET_SYNC",        0x00000011#32, 0xFFFFFFFF#32, fun _ _ => .setSync⟩,
    ⟨"ENCODE",          0x00000020#32, 0xFFFFFFFF#32, fun _ _ => .encode⟩,
    ⟨"DECODE",          0x00000021#32, 0xFFFFFFFF#32, fun _ _ => .decode⟩,
    ⟨"FILTER",          0x00000022#32, 0xFFFFFFFF#32, fun _ _ => .filter⟩,
    ⟨"SEND_RELIABLE",   0x00000030#32, 0xFF0000FF#32, fun a8 b8 => .sendReliable a8 b8⟩,
    ⟨"SEND_UNRELIABLE", 0x00000031#32, 0xFFFF00FF#32, fun a8 _ => .sendUnreliable a8⟩,
    ⟨"STOP",            0x00000038#32, 0xFFFFFFFF#32, fun _ _ => .stop⟩,
    ⟨"RXQ_POP",         0x00000040#32, 0xFFFFFFFF#32, fun _ _ => .rxqPop⟩ ]

/-- A row matches `w` when `(w & mask) = match` (R112). -/
def OpcodeRow.admits (r : OpcodeRow) (w : Word) : Bool := (w &&& r.mask) == r.value

/-- The field [7:0] of a command word (R111). -/
def opField (w : Word) : Byte := w.extractLsb' 0 8

/-- The field [15:8] of a command word (R111). -/
def a8Field (w : Word) : Byte := w.extractLsb' 8 8

/-- The field [23:16] of a command word (R111). -/
def b8Field (w : Word) : Byte := w.extractLsb' 16 8

/-- Decoding against the opcode map (R112). The rows' match sets are disjoint
(`opcodeTable_disjoint`), so the first row that matches is the only one. -/
def decode (w : Word) : Decoded :=
  match opcodeTable.find? (fun r => r.admits w) with
  | some r => .command (r.build (a8Field w) (b8Field w))
  | none =>
    if opcodeTable.any (fun r => opField r.value == opField w) then .illegal .reservedBits
    else .illegal .unassignedOp

/-- The command word of the fields OP, A8 and B8, with RSV = 0 (R111). -/
def commandWord (op a8 b8 : Byte) : Word := 0#8 ++ b8 ++ a8 ++ op

/-- The word of a command (R111, R114). -/
def encode : Instr → Word
  | .nop => commandWord 0x00#8 0#8 0#8
  | .crcInit => commandWord 0x01#8 0#8 0#8
  | .crcByte byte => commandWord 0x02#8 byte 0#8
  | .crcCheck => commandWord 0x03#8 0#8 0#8
  | .setAddr self promiscuous => commandWord 0x10#8 self (0#7 ++ BitVec.ofBool promiscuous)
  | .setSync => commandWord 0x11#8 0#8 0#8
  | .encode => commandWord 0x20#8 0#8 0#8
  | .decode => commandWord 0x21#8 0#8 0#8
  | .filter => commandWord 0x22#8 0#8 0#8
  | .sendReliable dest maxRetries => commandWord 0x30#8 dest maxRetries
  | .sendUnreliable dest => commandWord 0x31#8 dest 0#8
  | .stop => commandWord 0x38#8 0#8 0#8
  | .rxqPop => commandWord 0x40#8 0#8 0#8

/-- The byte lanes of a register word, lane 0 first: lane `j` carries bits [8j+7:8j] (20_memory.md R85). -/
def lanesOfWord (w : Word) : List Byte :=
  [w.extractLsb' 0 8, w.extractLsb' 8 8, w.extractLsb' 16 8, w.extractLsb' 24 8]

/-- The register word that four byte lanes carry (20_memory.md R85). -/
def wordOfLanes (b0 b1 b2 b3 : Byte) : Word := b3 ++ b2 ++ b1 ++ b0

/-- Decoding the byte lanes of one bus write: a command is exactly one 4-byte write (R110; 20_memory.md
R84), so no other number of bytes holds a command. -/
def decodeLanes : List Byte → Option Decoded
  | [b0, b1, b2, b3] => some (decode (wordOfLanes b0 b1 b2 b3))
  | _ => none

/-- The command the decoder reads from the `nbits` bits of `w`, laid out in the four byte lanes of a CMD
write, lane 0 lowest (R110, 20_memory.md R85); bits above `nbits` are 0. -/
def decodeTableWord (nbits w : Nat) : Option Instr :=
  match decodeLanes (lanesOfWord (BitVec.ofNat 32 (w % 2 ^ nbits))) with
  | some (.command i) => if nbits ≤ 32 then some i else none
  | some (.illegal _) => none
  | none => none

/-- The mnemonic of a command (R114). -/
def Instr.mnemonic : Instr → String
  | .nop => "NOP"
  | .crcInit => "CRC_INIT"
  | .crcByte _ => "CRC_BYTE"
  | .crcCheck => "CRC_CHECK"
  | .setAddr _ _ => "SET_ADDR"
  | .setSync => "SET_SYNC"
  | .encode => "ENCODE"
  | .decode => "DECODE"
  | .filter => "FILTER"
  | .sendReliable _ _ => "SEND_RELIABLE"
  | .sendUnreliable _ => "SEND_UNRELIABLE"
  | .stop => "STOP"
  | .rxqPop => "RXQ_POP"

/-- The operands of a command, in the order A8, B8 (R116). -/
def Instr.operands : Instr → List Nat
  | .nop => []
  | .crcInit => []
  | .crcByte byte => [byte.toNat]
  | .crcCheck => []
  | .setAddr self promiscuous => [self.toNat, promiscuous.toNat]
  | .setSync => []
  | .encode => []
  | .decode => []
  | .filter => []
  | .sendReliable dest maxRetries => [dest.toNat, maxRetries.toNat]
  | .sendUnreliable dest => [dest.toNat]
  | .stop => []
  | .rxqPop => []

/-- A command as an assembler line (R116). -/
def disassemble (i : Instr) : AsmLine := ⟨i.mnemonic, i.operands⟩

/-- The command of an assembler line (R116). An operand that does not fit its field is refused (log 20). -/
def assemble (l : AsmLine) : Option Instr :=
  match l.mnemonic, l.operands with
  | "NOP", [] => some .nop
  | "CRC_INIT", [] => some .crcInit
  | "CRC_BYTE", [a] => if a < 256 then some (.crcByte (BitVec.ofNat 8 a)) else none
  | "CRC_CHECK", [] => some .crcCheck
  | "SET_ADDR", [a, p] => if a < 256 ∧ p < 2 then some (.setAddr (BitVec.ofNat 8 a) (p == 1)) else none
  | "SET_SYNC", [] => some .setSync
  | "ENCODE", [] => some .encode
  | "DECODE", [] => some .decode
  | "FILTER", [] => some .filter
  | "SEND_RELIABLE", [a, b] =>
    if a < 256 ∧ b < 256 then some (.sendReliable (BitVec.ofNat 8 a) (BitVec.ofNat 8 b)) else none
  | "SEND_UNRELIABLE", [a] => if a < 256 then some (.sendUnreliable (BitVec.ofNat 8 a)) else none
  | "STOP", [] => some .stop
  | "RXQ_POP", [] => some .rxqPop
  | _, _ => none

end Sys2Proof
end

