-- ==== Sys2Proof/Config.lean ====
section
/-! DEFINITION. The implementation parameters (spec/00_scope.md section 3, the table of
spec/92_eei_decisions.md) and the free values: the answers of the transceiver (R19). -/

namespace Sys2Proof

/-- The parameters of one link block. They are plain data and a field of the machine's state, so that a
statement about every state is a statement about every parameter value (log 1). -/
structure Params where
  /-- BLOCK_BASE: the bus address of the register space (20_memory.md R80). -/
  blockBase : Nat
  /-- MAX_PAYLOAD: the largest payload in bytes (R10). -/
  maxPayload : Nat
  /-- PREAMBLE_LEN: how many preamble bytes an image starts with (R11). -/
  preambleLen : Nat
  /-- PREAMBLE_BYTE (R11). -/
  preambleByte : Byte
  /-- SYNC_RESET: the sync word after reset (R12). -/
  syncReset : Half
  /-- SELF_RESET: the local address after reset (R12). -/
  selfReset : Byte
  /-- CRC_INIT_VAL: the start value of the CRC register (R13). -/
  crcInitVal : Half
  /-- CRC_XOROUT: XORed into the CRC register to give the final CRC (R13). -/
  crcXorOut : Half
  /-- T_W: the width in bits of the ACK timer (R14). -/
  tW : Nat
  /-- TICK_PERIOD, in nanoseconds (R14; the unit is the model's, log 14). -/
  tickPeriod : Nat
  /-- RXQ_DEPTH: the most records the delivery queue holds (R15). -/
  rxqDepth : Nat
  /-- RSSI_W: the width in bits of a signal-strength reading (R15). -/
  rssiW : Nat
deriving DecidableEq, Repr

/-- BROADCAST, the fixed address 0xFF (R8; 90_conflicts.md C1). -/
def broadcast : Byte := 0xFF#8

/-- WIRE_BUF, the fixed size of a wire-image buffer (R15). -/
def wireBuf : Nat := 512

/-- The parameter values of `State.reset`: the column "default used in examples" of the parameter table
of 92_eei_decisions.md, and 0 for BLOCK_BASE, for which the table has none. DESIGN CHOICE, unsafe
(log 1): only `State.reset` mentions these values. -/
def Config.params : Params where
  blockBase := 0
  maxPayload := 251
  preambleLen := 4
  preambleByte := 0xAA#8
  syncReset := 0x2DD4#16
  selfReset := 0x00#8
  crcInitVal := 0x0000#16
  crcXorOut := 0x0000#16
  tW := 16
  tickPeriod := 1000000
  rxqDepth := 4
  rssiW := 8

/-- What `TRX.init()` returns where the environment has fixed no answer; the argument is the number of
answers the transceiver gave before (R19: a draw, free; log 2). Safe. -/
opaque Config.freeInit : Nat → Bool

/-- What `TRX.frameReady()` returns where the environment has fixed no answer (R19; log 2). Safe. -/
opaque Config.freeReady : Nat → Bool

/-- What `TRX.receiveRaw()` returns where the environment has fixed no answer, before the bounds of R19
are applied (log 2, log 3). Safe. -/
opaque Config.freeReceive : Nat → List Byte × Rssi

/-- What `TRX.transmitRaw(bytes)` returns where the environment has fixed no answer (R19; log 2). Safe. -/
opaque Config.freeTransmit : Nat → Bool

end Sys2Proof
end

