-- ==== Sys2Proof/Machine/State.lean ====
section
/-! DEFINITION. The state of the link block (spec/10_state.md): plain data, every piece the spec names,
the observations it names, and the events and answers that the environment has placed. -/

namespace Sys2Proof.Machine

/-- PSTATE, the state of the single Pending Send (R36). SENDING and RETRYING are entered and left inside
one event. The codes 6 and 7 are never held and have no constructor (log 12). -/
inductive PState where
  | idle
  | sending
  | awaitingAck
  | retrying
  | acked
  | failed
deriving DecidableEq, Repr

/-- The codes of CMD_RESULT (60_exceptions.md R320); 0x07 to 0xFF are never written (log 12). -/
inductive CmdResult where
  | none
  | ok
  | illegalCmd
  | notRunning
  | busy
  | tooLong
  | empty
deriving DecidableEq, Repr

/-- The codes of SR_CODE (60_exceptions.md R321); 6 to 255 are never written (log 12). -/
inductive SrCode where
  | none
  | pending
  | acked
  | failed
  | sent
  | txError
deriving DecidableEq, Repr

/-- The codes of DEC_CODE (R43); 5 to 7 are unused (log 12). -/
inductive DecCode where
  | none
  | ok
  | invalidSync
  | lengthMismatch
  | crcMismatch
deriving DecidableEq, Repr

/-- The four byte buffers of the register space (R40, R41, R43; 20_memory.md R81, R86). -/
inductive Buffer where
  | txBuf
  | rxqData
  | wireTx
  | wireRx
deriving DecidableEq, Repr

/-- The modes of `TRX.setMode` (00_scope.md R19). -/
inductive TrxMode where
  | idle
  | transmit
  | receive
deriving DecidableEq, Repr

/-- One call to the transceiver with its arguments (00_scope.md R19). -/
inductive TrxCall where
  | init
  | setAddress (self : Byte) (promiscuous : Bool)
  | setMode (m : TrxMode)
  | frameReady
  | receiveRaw
  | transmitRaw (image : List Byte)
deriving DecidableEq, Repr

/-- One answer of the transceiver: a draw (00_scope.md R19, R22). -/
inductive Draw where
  | init (ok : Bool)
  | frameReady (ready : Bool)
  | receiveRaw (bytes : List Byte) (rssi : Rssi)
  | transmitRaw (ok : Bool)
deriving DecidableEq, Repr

/-- The five events (00_scope.md R20). A host access carries its bus address and its width in bytes; a
write carries its value, of which only a 4-byte access has a use (20_memory.md R84). -/
inductive Event where
  | hostWrite (addr size : Nat) (v : Word)
  | hostRead (addr size : Nat)
  | tick
  | iterate
  | reset
deriving DecidableEq, Repr

/-- What the last host access answered on the bus (the model's own field, log 9): nothing yet; a write
done; a read's value; or the error response of a BusError, with which a read returns 0 (20_memory.md
R84). -/
inductive BusReply where
  | none
  | written
  | value (v : Word)
  | error (addr : Nat) (v : Word)
deriving DecidableEq, Repr

/-- The configuration (R33): SELF, PROMISC, SYNC. -/
structure LinkConfig where
  self : Byte
  promisc : Bool
  sync : Half
deriving DecidableEq, Repr

/-- The run-control bits (R34): FATAL, STOP_REQ, STOPPED. -/
structure RunControl where
  fatal : Bool
  stopReq : Bool
  stopped : Bool
deriving DecidableEq, Repr

/-- The Pending Send (R36, R37): PSTATE and the P_* fields. -/
structure PendingSend where
  state : PState
  dest : Byte
  id : Byte
  attempts : Byte
  max : Byte
  timeout : Ticks
  remain : Ticks
  image : List Byte
deriving DecidableEq, Repr

/-- One entry of the table PEER (R39). -/
structure PeerEntry where
  idValid : Bool
  lastId : Byte
  rssiValid : Bool
  rssi : Rssi
deriving DecidableEq, Repr

/-- One record of the delivery queue RXQ (R40). -/
structure RxRecord where
  fromAddr : Byte
  len : Byte
  payload : List Byte
  rssi : Rssi
deriving DecidableEq, Repr

/-- RXQ_OUT, the last popped record's fields and VALID (R40). -/
structure RxqOut where
  fromAddr : Byte
  len : Byte
  rssi : Rssi
  valid : Bool
deriving DecidableEq, Repr

/-- The host data registers that are no buffers (R41): ARG, TXLEN, HDR, RXLEN. -/
structure HostData where
  arg : Word
  txLen : Byte
  hdr : Word
  rxLen : BitVec 10
deriving DecidableEq, Repr

/-- The CRC unit (R42): CRC_ACC and CRC_MATCH. -/
structure CrcUnit where
  acc : Half
  matched : Bool
deriving DecidableEq, Repr

/-- The results of DECODE and FILTER (R43). -/
structure DecodeResult where
  code : DecCode
  toAddr : Byte
  fromAddr : Byte
  id : Byte
  flags : Byte
  len : Byte
  filtValid : Bool
  filtAccept : Bool
deriving DecidableEq, Repr

/-- SEND_RESULT (R44): SR_CODE, SR_ID, SR_ATTEMPTS. -/
structure SendResult where
  code : SrCode
  id : Byte
  attempts : Byte
deriving DecidableEq, Repr

/-- The telemetry registers (R45). The per-peer readings are in PEER. -/
structure Telemetry where
  delivered : Word
  dropSync : Word
  dropLen : Word
  dropCrc : Word
  retried : Word
  failed : Word
  qdrop : Word
  lastRssi : Rssi
  lastRssiValid : Bool
deriving DecidableEq, Repr

/-- The transceiver as the block meets it: the answers the environment has fixed for the calls to come,
oldest first, and the draws it has returned (R47, log 2). A call with no fixed answer left is answered by
a free value. -/
structure Transceiver where
  inits : List Bool
  readies : List Bool
  receives : List (List Byte × Rssi)
  transmits : List Bool
  answered : List Draw
deriving DecidableEq, Repr

/-- The state of one link block (10_state.md), with its parameters, its observations and what the
environment has placed. -/
structure State where
  /-- The parameters (00_scope.md section 3). No event changes them. -/
  cfg : Params
  /-- SELF, PROMISC, SYNC (R33). -/
  conf : LinkConfig
  /-- FATAL, STOP_REQ, STOPPED (R34). -/
  run : RunControl
  /-- TX_SEQ (R35). -/
  txSeq : Byte
  /-- PSTATE and the Pending Send (R36, R37). -/
  pend : PendingSend
  /-- PEER, indexed by sender address (R39). -/
  peer : Vector PeerEntry 256
  /-- RXQ, the oldest record first (R40). -/
  rxq : List RxRecord
  /-- RXQ_OUT (R40). -/
  rxqOut : RxqOut
  /-- ARG, TXLEN, HDR, RXLEN (R41). -/
  data : HostData
  /-- CRC_ACC, CRC_MATCH (R42). -/
  crc : CrcUnit
  /-- WIRE_TX_LEN (R43). -/
  wireTxLen : BitVec 10
  /-- DEC_* and FILT_* (R43). -/
  dec : DecodeResult
  /-- CMD_RESULT (R44). -/
  cmdResult : CmdResult
  /-- SEND_RESULT (R44). -/
  sendResult : SendResult
  /-- The counters, LAST_RSSI and LAST_RSSI_VALID (R45). -/
  tel : Telemetry
  /-- TXBUF, RXQ_DATA, WIRE_TX and WIRE_RX, by their offsets in the register space (20_memory.md R81,
  R86): offsets strictly rising, no zero byte listed (log 8). -/
  mem : List Host.Cell
  /-- The outbound-call trace, oldest call first (R46). No rule reads it. -/
  trace : List TrxCall
  /-- The transceiver's answers (00_scope.md R19; R47; log 2). -/
  trx : Transceiver
  /-- The events the environment has placed and the block has not taken, the next one first (log 4). -/
  events : List Event
  /-- The answer of the last host access (log 9). -/
  busReply : BusReply
deriving DecidableEq, Repr

/-- Why a host access faults (20_memory.md R84). -/
inductive BusCause where
  /-- The access is not 4 bytes wide. -/
  | width
  /-- Its offset is not a multiple of 4. -/
  | misaligned
  /-- Its offset is unmapped. -/
  | unmapped
  /-- Its address lies outside the 4096 bytes at BLOCK_BASE, where the block has no register (log 7). -/
  | outsideWindow
deriving DecidableEq, Repr

/-- The faults of a step. -/
inductive Fault where
  /-- BusError(addr), raised by HOST_WRITE and HOST_READ (20_memory.md R84, 60_exceptions.md R324): the
  host's access is answered with an error and the block changes no state. Safe (log 6). -/
  | busError (addr : Nat) (cause : BusCause)
deriving DecidableEq, Repr

/-- The refusals of a step. -/
inductive Refusal where
  /-- A command that has no meaning yet: raised by an arm of `exec` only. Safe. No command of this model
  is refused. -/
  | notModelled (mnemonic : String)
deriving DecidableEq, Repr

/-- An entry of PEER that no frame has touched (R39, R48). -/
def PeerEntry.empty : PeerEntry := ⟨false, 0x00#8, false, 0#15⟩

/-- Every piece of state at the reset value of R48 under parameters `p`, with FATAL = 0 as R350 says
before `TRX.init()` is called, no call made and nothing placed by the environment. -/
def State.cleared (p : Params) : State where
  cfg := p
  conf := ⟨p.selfReset, false, p.syncReset⟩
  run := ⟨false, false, false⟩
  txSeq := 0x00#8
  pend := ⟨.idle, 0#8, 0#8, 0#8, 0#8, 0#32, 0#32, []⟩
  peer := Vector.replicate 256 PeerEntry.empty
  rxq := []
  rxqOut := ⟨0#8, 0#8, 0#15, false⟩
  data := ⟨0#32, 0#8, 0#32, 0#10⟩
  crc := ⟨p.crcInitVal, false⟩
  wireTxLen := 0#10
  dec := ⟨.none, 0#8, 0#8, 0#8, 0#8, 0#8, false, false⟩
  cmdResult := .none
  sendResult := ⟨.none, 0#8, 0#8⟩
  tel := ⟨0#32, 0#32, 0#32, 0#32, 0#32, 0#32, 0#32, 0#15, false⟩
  mem := []
  trace := []
  trx := ⟨[], [], [], [], []⟩
  events := []
  busReply := .none

/-- The state right after a RESET whose `TRX.init()` returned true, under parameters `p` (70_reset_and_hazards.md
R350, R352): the reset values, and the three transceiver calls of R350 in the trace. -/
def State.afterReset (p : Params) : State :=
  { State.cleared p with
    trace := [.init, .setAddress p.selfReset false, .setMode .receive]
    trx := ⟨[], [], [], [], [.init true]⟩ }

/-- The machine right after reset: a successful RESET (log 5) under the parameters of `Config.params`
(log 1). -/
def State.reset : State := State.afterReset Config.params

end Sys2Proof.Machine
end

