-- ==== Sys2Proof/Machine/Ops.lean ====
section
/-! DEFINITION. The operations the commands and events share: the byte buffers, the transceiver calls,
the register updates the pseudocode of several rules makes. The block has no trap mechanism
(spec/60_exceptions.md R328), so taking an exception and returning from one have no counterpart: a command
reports its error by `setResult`. -/

namespace Sys2Proof.Machine

/-! ### The byte buffers (20_memory.md R86; log 8) -/

/-- What an offset that is not listed reads as: the reset contents of every buffer (10_state.md R48). -/
def Memory.unlisted : Byte := 0x00#8

/-- The byte at an offset. -/
def Memory.read : List Host.Cell → Nat → Byte
  | [], _ => Memory.unlisted
  | (k, v) :: rest, a => if k = a then v else Memory.read rest a

/-- Store one byte, keeping the canonical form. -/
def Memory.write : List Host.Cell → Nat → Byte → List Host.Cell
  | [], a, b => if b = Memory.unlisted then [] else [(a, b)]
  | (k, v) :: rest, a, b =>
    if a < k then (if b = Memory.unlisted then (k, v) :: rest else (a, b) :: (k, v) :: rest)
    else if a = k then (if b = Memory.unlisted then rest else (a, b) :: rest)
    else (k, v) :: Memory.write rest a b

/-- Store bytes at ascending offsets from `a`. -/
def Memory.writeBytes (m : List Host.Cell) (a : Nat) : List Byte → List Host.Cell
  | [] => m
  | b :: bs => Memory.writeBytes (Memory.write m a b) (a + 1) bs

/-- The `n` bytes at ascending offsets from `a`. -/
def Memory.readBytes (m : List Host.Cell) (a n : Nat) : List Byte :=
  (List.range n).map fun k => Memory.read m (a + k)

/-- Set the `n` bytes from offset `a` to 0x00. -/
def Memory.clear (m : List Host.Cell) (a n : Nat) : List Host.Cell :=
  m.filter fun c => !(decide (a ≤ c.1) && decide (c.1 < a + n))

/-- The canonical form: offsets strictly rising and no entry equal to what an unlisted offset reads as. -/
def Memory.wf : List Host.Cell → Bool
  | [] => true
  | [(_, v)] => decide (v ≠ Memory.unlisted)
  | (k, v) :: (k', v') :: rest =>
    decide (v ≠ Memory.unlisted) && decide (k < k') && Memory.wf ((k', v') :: rest)

/-- The offset of a buffer's byte 0 (20_memory.md R81). -/
def Buffer.start : Buffer → Nat
  | .txBuf => 0x800
  | .rxqData => 0x900
  | .wireTx => 0xA00
  | .wireRx => 0xC00

/-- The number of bytes of a buffer (20_memory.md R81; 10_state.md R40, R41, R43). -/
def Buffer.size : Buffer → Nat
  | .txBuf => 256
  | .rxqData => 256
  | .wireTx => wireBuf
  | .wireRx => wireBuf

/-- Byte `k` of a buffer (20_memory.md R86). -/
def State.bufferByte (s : State) (b : Buffer) (k : Nat) : Byte := Memory.read s.mem (b.start + k)

/-- The bytes 0 to `n-1` of a buffer. -/
def State.bufferBytes (s : State) (b : Buffer) (n : Nat) : List Byte := Memory.readBytes s.mem b.start n

/-- Put `bytes` at the start of a buffer and 0x00 in the rest of it (the stores of 41_codec.md R172 and
44_receive.md R270). Bytes past the buffer's end, which no image and no payload has under parameters in
their ranges (30_encoding.md R125), are dropped (log 18). -/
def State.fillBuffer (b : Buffer) (bytes : List Byte) (s : State) : State :=
  let kept := bytes.take b.size
  { s with
    mem := Memory.clear (Memory.writeBytes s.mem b.start kept) (b.start + kept.length) (b.size - kept.length) }

/-! ### The transceiver (00_scope.md R19; log 2, log 3) -/

/-- The answer to the next `TRX.init()`. -/
def State.initAnswer (s : State) : Bool :=
  match s.trx.inits with
  | b :: _ => b
  | [] => Config.freeInit s.trx.answered.length

/-- The answer to the next `TRX.frameReady()`. -/
def State.readyAnswer (s : State) : Bool :=
  match s.trx.readies with
  | b :: _ => b
  | [] => Config.freeReady s.trx.answered.length

/-- A reading cut to RSSI_W bits, the bound of R19 (log 3). -/
def rssiDraw (p : Params) (r : Rssi) : Rssi := BitVec.ofNat 15 (r.toNat % 2 ^ p.rssiW)

/-- The answer to the next `TRX.receiveRaw()`: at most WIRE_BUF bytes and an RSSI_W-bit reading (R19). -/
def State.receiveAnswer (s : State) : List Byte × Rssi :=
  let drawn :=
    match s.trx.receives with
    | d :: _ => d
    | [] => Config.freeReceive s.trx.answered.length
  (drawn.1.take wireBuf, rssiDraw s.cfg drawn.2)

/-- The answer to the next `TRX.transmitRaw(bytes)`. -/
def State.transmitAnswer (s : State) : Bool :=
  match s.trx.transmits with
  | b :: _ => b
  | [] => Config.freeTransmit s.trx.answered.length

/-- Record a transceiver call in the outbound-call trace (10_state.md R46). -/
def State.logCall (c : TrxCall) (s : State) : State := { s with trace := s.trace ++ [c] }

/-- `TRX.init()`; its answer is `initAnswer` of the state before. -/
def State.callInit (s : State) : State :=
  { s.logCall .init with
    trx := { s.trx with inits := s.trx.inits.tail, answered := s.trx.answered ++ [.init s.initAnswer] } }

/-- `TRX.frameReady()`; its answer is `readyAnswer` of the state before. -/
def State.callFrameReady (s : State) : State :=
  { s.logCall .frameReady with
    trx := { s.trx with
      readies := s.trx.readies.tail, answered := s.trx.answered ++ [.frameReady s.readyAnswer] } }

/-- `TRX.receiveRaw()`; its answer is `receiveAnswer` of the state before. -/
def State.callReceiveRaw (s : State) : State :=
  { s.logCall .receiveRaw with
    trx := { s.trx with
      receives := s.trx.receives.tail
      answered := s.trx.answered ++ [.receiveRaw s.receiveAnswer.1 s.receiveAnswer.2] } }

/-- `TRX.transmitRaw(image)`; its answer is `transmitAnswer` of the state before. -/
def State.callTransmitRaw (image : List Byte) (s : State) : State :=
  { s.logCall (.transmitRaw image) with
    trx := { s.trx with
      transmits := s.trx.transmits.tail, answered := s.trx.answered ++ [.transmitRaw s.transmitAnswer] } }

/-- `TRX.setMode(m)`. -/
def State.callSetMode (m : TrxMode) (s : State) : State := s.logCall (.setMode m)

/-- `TRX.setAddress(SELF, PROMISC)`. -/
def State.callSetAddress (s : State) : State := s.logCall (.setAddress s.conf.self s.conf.promisc)

/-- `TRX.transmitRaw(image)` followed by `TRX.setMode(Receive)`, as every transmission of a send does
(43_send.md R222, R223, R224, R226). -/
def State.transmit (image : List Byte) (s : State) : State :=
  (s.callTransmitRaw image).callSetMode .receive

/-! ### Registers -/

/-- `CMD_RESULT <- r` (60_exceptions.md R320). -/
def State.setResult (r : CmdResult) (s : State) : State := { s with cmdResult := r }

/-- `SEND_RESULT <- (code, id, attempts)` (60_exceptions.md R321). -/
def State.setSendResult (code : SrCode) (id attempts : Byte) (s : State) : State :=
  { s with sendResult := ⟨code, id, attempts⟩ }

/-- `PSTATE <- p` (10_state.md R36). -/
def State.setPState (p : PState) (s : State) : State := { s with pend := { s.pend with state := p } }

/-- `PEER[a]` (10_state.md R39). -/
def State.peerAt (s : State) (a : Byte) : PeerEntry := s.peer[a.toNat]

/-- `PEER[a] <- e` (10_state.md R39). -/
def State.setPeer (a : Byte) (e : PeerEntry) (s : State) : State :=
  { s with peer := s.peer.set a.toNat e }

/-- The block is running when FATAL = 0 and STOPPED = 0 (10_state.md R34). -/
def State.running (s : State) : Bool := !s.run.fatal && !s.run.stopped

/-- RXQ_COUNT, the number of records in RXQ (10_state.md R40). -/
def State.rxqCount (s : State) : Nat := s.rxq.length

end Sys2Proof.Machine
end

