-- ==== Sys2Proof/Machine/Operands.lean ====
section
/-! DEFINITION. Operand assembly (spec/30_encoding.md R113): the operands that lie in the data registers.
The operands A8 and B8 are arguments of the commands (Sys2Proof/Decode.lean). -/

namespace Sys2Proof.Machine

/-- The first `w` bits of a word, for a width parameter `w` (00_scope.md R14). -/
def lowBits (w : Nat) (v : Word) : Word := BitVec.ofNat 32 (v.toNat % 2 ^ w)

/-- `ackTimeout = ARG[T_W-1:0]`; ARG bits [31:T_W] are ignored (R113). -/
def State.ackTimeout (s : State) : Ticks := lowBits s.cfg.tW s.data.arg

/-- `ARG[15:0]`, the operand of SET_SYNC and CRC_CHECK; ARG bits [31:16] are ignored (R113). -/
def State.argLow (s : State) : Half := s.data.arg.extractLsb' 0 16

/-- The payload `TXBUF[0..TXLEN-1]` (R113). -/
def State.txPayload (s : State) : List Byte := s.bufferBytes .txBuf s.data.txLen.toNat

/-- The image `WIRE_RX[0..RXLEN-1]` (R113). -/
def State.rxImage (s : State) : List Byte := s.bufferBytes .wireRx s.data.rxLen.toNat

/-- `HDR.TO`, bits [7:0] (10_state.md R41). -/
def State.hdrTo (s : State) : Byte := s.data.hdr.extractLsb' 0 8

/-- `HDR.FROM`, bits [15:8] (10_state.md R41). -/
def State.hdrFrom (s : State) : Byte := s.data.hdr.extractLsb' 8 8

/-- `HDR.ID`, bits [23:16] (10_state.md R41). -/
def State.hdrId (s : State) : Byte := s.data.hdr.extractLsb' 16 8

/-- `HDR.FLAGS`, bits [31:24] (10_state.md R41). -/
def State.hdrFlags (s : State) : Byte := s.data.hdr.extractLsb' 24 8

end Sys2Proof.Machine
end

