-- ==== Sys2Proof/Machine/Crc.lean ====
section
/-! DEFINITION. The CRC unit (spec/40_crc.md): CRC-16/IBM and the commands CRC_INIT, CRC_BYTE,
CRC_CHECK. -/

namespace Sys2Proof.Machine

/-- One shift of R150: the register shifts right, and 0xA001 is XORed in when the bit shifted out was 1. -/
def crc16Shift (c : Half) : Half := if c.getLsbD 0 then (c >>> 1) ^^^ 0xA001#16 else c >>> 1

/-- `n` shifts of R150. -/
def crc16Shifts : Nat → Half → Half
  | 0, c => c
  | n + 1, c => crc16Shifts n (crc16Shift c)

/-- `crc16_update(c, b)` (R150). -/
def crc16Update (c : Half) (b : Byte) : Half := crc16Shifts 8 (c ^^^ b.setWidth 16)

/-- The running register after the bytes, from a start value (the loop of R151). -/
def crc16Fold (c : Half) (bytes : List Byte) : Half := bytes.foldl crc16Update c

/-- `crc16(bytes)` (R151). -/
def crc16 (p : Params) (bytes : List Byte) : Half := crc16Fold p.crcInitVal bytes ^^^ p.crcXorOut

/-- `CRC_FINAL = CRC_ACC ^ CRC_XOROUT` (10_state.md R42). -/
def State.crcFinal (s : State) : Half := s.crc.acc ^^^ s.cfg.crcXorOut

/-- CRC_INIT (R152). -/
def execCrcInit (s : State) : Host.Outcome State Fault Refusal :=
  .next (State.setResult .ok { s with crc := ⟨s.cfg.crcInitVal, false⟩ })

/-- CRC_BYTE byte (R153). -/
def execCrcByte (byte : Byte) (s : State) : Host.Outcome State Fault Refusal :=
  .next (State.setResult .ok { s with crc := { s.crc with acc := crc16Update s.crc.acc byte } })

/-- CRC_CHECK (R154). -/
def execCrcCheck (s : State) : Host.Outcome State Fault Refusal :=
  .next (State.setResult .ok { s with crc := { s.crc with matched := s.crcFinal == s.argLow } })

end Sys2Proof.Machine
end

