-- ==== Sys2Proof/Machine/Flags.lean ====
section
/-! DEFINITION. The flag byte of a frame (spec/10_state.md R32, spec/30_encoding.md R123, R124), the codes
of the result registers, and the status bits (spec/20_memory.md R82). The block has no condition codes
(R32). -/

namespace Sys2Proof.Machine

/-- `flags[0]`, ACK: "this frame is an acknowledgment" (10_state.md R32). -/
def ackFlag (flags : Byte) : Bool := flags.getLsbD 0

/-- `flags[1]`, NO_ACK_NEEDED (10_state.md R32). -/
def noAckNeeded (flags : Byte) : Bool := flags.getLsbD 1

/-- The flags byte of a frame SEND_RELIABLE builds (30_encoding.md R124). -/
def flagsReliable : Byte := 0x00#8

/-- The flags byte of a frame SEND_UNRELIABLE builds: NO_ACK_NEEDED (30_encoding.md R124). -/
def flagsUnreliable : Byte := 0x02#8

/-- The flags byte of an emitted ACK (30_encoding.md R124). -/
def flagsAck : Byte := 0x01#8

/-- `ack_eligible(F)`: `F.to != 0xFF` and NO_ACK_NEEDED clear (44_receive.md R267; 90_conflicts.md C2). -/
def ackEligible (f : Frame) : Bool := f.toAddr != broadcast && !noAckNeeded f.flags

/-- The encoding of PSTATE (10_state.md R36). -/
def PState.code : PState → BitVec 3
  | .idle => 0#3
  | .sending => 1#3
  | .awaitingAck => 2#3
  | .retrying => 3#3
  | .acked => 4#3
  | .failed => 5#3

/-- The codes of CMD_RESULT (60_exceptions.md R320). -/
def CmdResult.code : CmdResult → Byte
  | .none => 0x00#8
  | .ok => 0x01#8
  | .illegalCmd => 0x02#8
  | .notRunning => 0x03#8
  | .busy => 0x04#8
  | .tooLong => 0x05#8
  | .empty => 0x06#8

/-- The codes of SR_CODE (60_exceptions.md R321). -/
def SrCode.code : SrCode → Byte
  | .none => 0#8
  | .pending => 1#8
  | .acked => 2#8
  | .failed => 3#8
  | .sent => 4#8
  | .txError => 5#8

/-- The codes of DEC_CODE (10_state.md R43). -/
def DecCode.code : DecCode → BitVec 3
  | .none => 0#3
  | .ok => 1#3
  | .invalidSync => 2#3
  | .lengthMismatch => 3#3
  | .crcMismatch => 4#3

/-- DEC_CODE for a DecodeError (60_exceptions.md R322). -/
def decCodeOf : DecodeError → DecCode
  | .invalidSync => .invalidSync
  | .lengthMismatch => .lengthMismatch
  | .crcMismatch => .crcMismatch

/-- BUSY = (PSTATE = AWAITING_ACK) (20_memory.md R82). -/
def State.busyBit (s : State) : Bool := s.pend.state == .awaitingAck

/-- RXQ_NONEMPTY = (RXQ_COUNT > 0) (20_memory.md R82). -/
def State.rxqNonempty (s : State) : Bool := decide (0 < s.rxqCount)

/-- RXQ_FULL = (RXQ_COUNT = RXQ_DEPTH) (20_memory.md R82). -/
def State.rxqFull (s : State) : Bool := s.rxqCount == s.cfg.rxqDepth

/-- STATUS, computed from state at the moment of the read (20_memory.md R82): [10:8] PSTATE, [5] RXQ_FULL,
[4] RXQ_NONEMPTY, [3] STOPPED, [2] STOP_REQ, [1] FATAL, [0] BUSY, the rest 0. -/
def State.statusWord (s : State) : Word :=
  0#21 ++ s.pend.state.code ++ 0#2 ++ BitVec.ofBool s.rxqFull ++ BitVec.ofBool s.rxqNonempty ++
    BitVec.ofBool s.run.stopped ++ BitVec.ofBool s.run.stopReq ++ BitVec.ofBool s.run.fatal ++
    BitVec.ofBool s.busyBit

end Sys2Proof.Machine
end

