-- ==== Sys2Proof/Machine/Bus.lean ====
section
/-! DEFINITION. The register space (spec/20_memory.md): the register map, what a read returns, what a write
stores, and which accesses fault. -/

namespace Sys2Proof.Machine

/-- The registers of the map (R81): the single registers, PEERW[a], and word `m` of a byte buffer. -/
inductive Reg where
  | cmd
  | arg
  | status
  | cmdResult
  | sendResult
  | config
  | txSeq
  | pendA
  | pendTimeout
  | pendRemain
  | txLen
  | hdr
  | crcAcc
  | crcFinal
  | rxLen
  | decStatus
  | decHdr
  | decLen
  | wireTxLen
  | rxqOut
  | rxqCount
  | lastRssi
  | cntDelivered
  | cntDropSync
  | cntDropLen
  | cntDropCrc
  | cntRetried
  | cntFailed
  | cntQdrop
  | peerW (a : Byte)
  | bufferWord (b : Buffer) (m : Nat)
deriving DecidableEq, Repr

/-- Access kinds (R81, R83). -/
inductive Access where
  | readOnly
  | readWrite
  | writeOnly
deriving DecidableEq, Repr

/-- The single registers of the map, by offset (R81). -/
def singleRegs : List (Nat × Reg) :=
  [ (0x000, .cmd), (0x004, .arg), (0x008, .status), (0x00C, .cmdResult), (0x010, .sendResult),
    (0x014, .config), (0x018, .txSeq), (0x01C, .pendA), (0x020, .pendTimeout), (0x024, .pendRemain),
    (0x028, .txLen), (0x02C, .hdr), (0x030, .crcAcc), (0x034, .crcFinal), (0x038, .rxLen),
    (0x03C, .decStatus), (0x040, .decHdr), (0x044, .decLen), (0x048, .wireTxLen), (0x04C, .rxqOut),
    (0x050, .rxqCount), (0x054, .lastRssi), (0x060, .cntDelivered), (0x064, .cntDropSync),
    (0x068, .cntDropLen), (0x06C, .cntDropCrc), (0x070, .cntRetried), (0x074, .cntFailed),
    (0x078, .cntQdrop) ]

/-- The register at an offset that is a multiple of 4; none where the offset is unmapped (R81). -/
def regAt (off : Nat) : Option Reg :=
  if off < 0x400 then (singleRegs.find? fun e => e.1 == off).map Prod.snd
  else if off < 0x800 then some (.peerW (BitVec.ofNat 8 ((off - 0x400) / 4)))
  else if off < 0x900 then some (.bufferWord .txBuf ((off - 0x800) / 4))
  else if off < 0xA00 then some (.bufferWord .rxqData ((off - 0x900) / 4))
  else if off < 0xC00 then some (.bufferWord .wireTx ((off - 0xA00) / 4))
  else if off < 0xE00 then some (.bufferWord .wireRx ((off - 0xC00) / 4))
  else none

/-- The access kind of a register (R81). -/
def Reg.access : Reg → Access
  | .cmd => .writeOnly
  | .arg => .readWrite
  | .txLen => .readWrite
  | .hdr => .readWrite
  | .rxLen => .readWrite
  | .bufferWord .txBuf _ => .readWrite
  | .bufferWord .wireRx _ => .readWrite
  | .bufferWord .rxqData _ => .readOnly
  | .bufferWord .wireTx _ => .readOnly
  | .status => .readOnly
  | .cmdResult => .readOnly
  | .sendResult => .readOnly
  | .config => .readOnly
  | .txSeq => .readOnly
  | .pendA => .readOnly
  | .pendTimeout => .readOnly
  | .pendRemain => .readOnly
  | .crcAcc => .readOnly
  | .crcFinal => .readOnly
  | .decStatus => .readOnly
  | .decHdr => .readOnly
  | .decLen => .readOnly
  | .wireTxLen => .readOnly
  | .rxqOut => .readOnly
  | .rxqCount => .readOnly
  | .lastRssi => .readOnly
  | .cntDelivered => .readOnly
  | .cntDropSync => .readOnly
  | .cntDropLen => .readOnly
  | .cntDropCrc => .readOnly
  | .cntRetried => .readOnly
  | .cntFailed => .readOnly
  | .cntQdrop => .readOnly
  | .peerW _ => .readOnly

/-- Word `m` of a buffer: byte `4m` in bits [7:0] to byte `4m+3` in bits [31:24] (R86). -/
def State.bufferWord (s : State) (b : Buffer) (m : Nat) : Word :=
  wordOfLanes (s.bufferByte b (4 * m)) (s.bufferByte b (4 * m + 1)) (s.bufferByte b (4 * m + 2))
    (s.bufferByte b (4 * m + 3))

/-- The word at PEERW[a]: [7:0] LAST_ID, [8] ID_VALID, [30:16] RSSI, [31] RSSI_VALID (R81). -/
def peerWord (e : PeerEntry) : Word :=
  BitVec.ofBool e.rssiValid ++ e.rssi ++ 0#7 ++ BitVec.ofBool e.idValid ++ e.lastId

/-- What a read of a register returns (R81, R82, R83, R86): CMD reads 0, reserved bits read 0. -/
def State.view (s : State) : Reg → Word
  | .cmd => 0#32
  | .arg => s.data.arg
  | .status => s.statusWord
  | .cmdResult => 0#24 ++ s.cmdResult.code
  | .sendResult => 0#8 ++ s.sendResult.attempts ++ s.sendResult.id ++ s.sendResult.code.code
  | .config => s.conf.sync ++ 0#7 ++ BitVec.ofBool s.conf.promisc ++ s.conf.self
  | .txSeq => 0#24 ++ s.txSeq
  | .pendA => s.pend.max ++ s.pend.attempts ++ s.pend.id ++ s.pend.dest
  | .pendTimeout => s.pend.timeout
  | .pendRemain => s.pend.remain
  | .txLen => 0#24 ++ s.data.txLen
  | .hdr => s.data.hdr
  | .crcAcc => 0#16 ++ s.crc.acc
  | .crcFinal => 0#15 ++ BitVec.ofBool s.crc.matched ++ s.crcFinal
  | .rxLen => 0#22 ++ s.data.rxLen
  | .decStatus =>
    0#26 ++ BitVec.ofBool s.dec.filtAccept ++ BitVec.ofBool s.dec.filtValid ++ 0#1 ++ s.dec.code.code
  | .decHdr => s.dec.flags ++ s.dec.id ++ s.dec.fromAddr ++ s.dec.toAddr
  | .decLen => 0#24 ++ s.dec.len
  | .wireTxLen => 0#22 ++ s.wireTxLen
  | .rxqOut => BitVec.ofBool s.rxqOut.valid ++ s.rxqOut.rssi ++ s.rxqOut.len ++ s.rxqOut.fromAddr
  | .rxqCount => BitVec.ofNat 32 (s.rxqCount % 256)
  | .lastRssi => BitVec.ofBool s.tel.lastRssiValid ++ 0#16 ++ s.tel.lastRssi
  | .cntDelivered => s.tel.delivered
  | .cntDropSync => s.tel.dropSync
  | .cntDropLen => s.tel.dropLen
  | .cntDropCrc => s.tel.dropCrc
  | .cntRetried => s.tel.retried
  | .cntFailed => s.tel.failed
  | .cntQdrop => s.tel.qdrop
  | .peerW a => peerWord (s.peerAt a)
  | .bufferWord b m => s.bufferWord b m

/-- Store the four bytes of a word at word `m` of a buffer (R86). -/
def State.storeBufferWord (b : Buffer) (m : Nat) (v : Word) (s : State) : State :=
  { s with mem := Memory.writeBytes s.mem (b.start + 4 * m) (lanesOfWord v) }

/-- What a write to a register other than CMD stores (R83, R86): an RW register takes the bits of its
fields and drops the rest, and a write to an RO register is ignored. A write to CMD stores nothing here;
it executes a command (Sys2Proof/Machine/Events.lean). -/
def State.storeReg (r : Reg) (v : Word) (s : State) : State :=
  match r.access with
  | .readOnly => s
  | .writeOnly => s
  | .readWrite =>
    match r with
    | .arg => { s with data := { s.data with arg := v } }
    | .txLen => { s with data := { s.data with txLen := v.extractLsb' 0 8 } }
    | .hdr => { s with data := { s.data with hdr := v } }
    | .rxLen => { s with data := { s.data with rxLen := v.extractLsb' 0 10 } }
    | .bufferWord b m => s.storeBufferWord b m v
    | _ => s

/-- What the bus answers to an access: a register, or a fault (R84). -/
inductive Located where
  | reg (r : Reg)
  | error (cause : BusCause)
deriving DecidableEq, Repr

/-- The register that an access of `size` bytes at bus address `addr` reaches (R80, R84). The three faults
of R84, and an address outside the block's window (log 7). -/
def locate (p : Params) (addr size : Nat) : Located :=
  if addr < p.blockBase ∨ p.blockBase + 4096 ≤ addr then .error .outsideWindow
  else if size ≠ 4 then .error .width
  else if (addr - p.blockBase) % 4 ≠ 0 then .error .misaligned
  else
    match regAt (addr - p.blockBase) with
    | some r => .reg r
    | none => .error .unmapped

/-- HOST_READ(addr) (R84): the value is the bus reply, and nothing else changes (R83). -/
def State.hostRead (addr size : Nat) (s : State) : Host.Outcome State Fault Refusal :=
  match locate s.cfg addr size with
  | .reg r => .next { s with busReply := .value (s.view r) }
  | .error cause => .fault (.busError addr cause)

/-- The block after a faulting access to `addr`: no state of the block changes, and the bus reply is the
error response, with which a read returns 0 (R84, R324). -/
def State.afterBusError (addr : Nat) (s : State) : State := { s with busReply := .error addr 0#32 }

end Sys2Proof.Machine
end

