-- ==== Sys2Proof/Machine/Control.lean ====
section
/-! DEFINITION. The control commands (spec/45_control_telemetry.md): NOP and STOP. -/

namespace Sys2Proof.Machine

/-- NOP (R300). -/
def execNop (s : State) : Host.Outcome State Fault Refusal := .next (s.setResult .ok)

/-- STOP (R301). -/
def execStop (s : State) : Host.Outcome State Fault Refusal :=
  .next (State.setResult .ok { s with run := { s.run with stopReq := true } })

end Sys2Proof.Machine
end

