-- ==== Sys2Proof/Machine/Filter.lean ====
section
/-! DEFINITION. The address filter and the configuration commands (spec/42_filter_config.md): FILTER,
SET_ADDR, SET_SYNC. -/

namespace Sys2Proof.Machine

/-- `accept(to)` (R200). -/
def State.accepts (s : State) (toAddr : Byte) : Bool :=
  s.conf.promisc || toAddr == s.conf.self || toAddr == broadcast

/-- FILTER (R201). -/
def execFilter (s : State) : Host.Outcome State Fault Refusal :=
  if s.dec.code ≠ .ok then
    .next (State.setResult .ok { s with dec := { s.dec with filtValid := false, filtAccept := false } })
  else
    .next (State.setResult .ok
      { s with dec := { s.dec with filtValid := true, filtAccept := s.accepts s.dec.toAddr } })

/-- SET_ADDR self, promiscuous (R203). -/
def execSetAddr (self : Byte) (promiscuous : Bool) (s : State) : Host.Outcome State Fault Refusal :=
  if s.running then
    let configured : State := { s with conf := { s.conf with self := self, promisc := promiscuous } }
    .next (configured.callSetAddress.setResult .ok)
  else .next (s.setResult .notRunning)

/-- SET_SYNC (R205). -/
def execSetSync (s : State) : Host.Outcome State Fault Refusal :=
  .next (State.setResult .ok { s with conf := { s.conf with sync := s.argLow } })

end Sys2Proof.Machine
end

