-- ==== Sys2Proof/Machine/Codec.lean ====
section
/-! DEFINITION. The frame codec (spec/41_codec.md): the pure functions `encode` and `decode` on wire
images (spec/30_encoding.md R121), and the commands ENCODE and DECODE. -/

namespace Sys2Proof.Machine

/-- Bits [15:8] of a 16-bit value. -/
def highByte (v : Half) : Byte := v.extractLsb' 8 8

/-- Bits [7:0] of a 16-bit value. -/
def lowByte (v : Half) : Byte := v.extractLsb' 0 8

/-- The bytes the CRC covers: To, From, Id, Flags, Length, Payload (30_encoding.md R122). -/
def frameBody (toAddr fromAddr id flags : Byte) (payload : List Byte) : List Byte :=
  [toAddr, fromAddr, id, flags, BitVec.ofNat 8 payload.length] ++ payload

/-- The wire image of a frame whose payload fits (30_encoding.md R121; R170): the preamble, the sync word
high byte first, the body, the CRC low byte first. -/
def wireImage (p : Params) (sync : Half) (toAddr fromAddr id flags : Byte) (payload : List Byte) : List Byte :=
  let body := frameBody toAddr fromAddr id flags payload
  let c := crc16 p body
  List.replicate p.preambleLen p.preambleByte ++ [highByte sync, lowByte sync] ++ body ++ [lowByte c, highByte c]

/-- `encode(to, from, id, flags, payload)` (R170), under parameters `p` and the sync word `sync`. -/
def encodeFrame (p : Params) (sync : Half) (toAddr fromAddr id flags : Byte) (payload : List Byte) : EncodeResult :=
  if payload.length > p.maxPayload then .payloadTooLong
  else .image (wireImage p sync toAddr fromAddr id flags payload)

/-- The bytes `encode` produced; when it fails it produces none (R171). -/
def encodedBytes : EncodeResult → List Byte
  | .image bytes => bytes
  | .payloadTooLong => []

/-- Byte `k` of a byte sequence (00_scope.md R17); the rules read only bytes that exist. -/
def byteAt (bytes : List Byte) (k : Nat) : Byte := bytes.getD k 0x00#8

/-- `decode(bytes)` (R174), under parameters `p` and the sync word `sync`. -/
def decodeFrame (p : Params) (sync : Half) (bytes : List Byte) : FrameResult :=
  let n := bytes.length
  let pre := p.preambleLen
  if n < pre + 2 then .error .invalidSync
  else if byteAt bytes pre ≠ highByte sync ∨ byteAt bytes (pre + 1) ≠ lowByte sync then .error .invalidSync
  else
    let r := n - (pre + 2)
    if r < 5 then .error .lengthMismatch
    else
      let len := byteAt bytes (pre + 6)
      if len.toNat > p.maxPayload ∨ r ≠ len.toNat + 7 then .error .lengthMismatch
      else
        let body := (bytes.drop (pre + 2)).take (5 + len.toNat)
        let trailer : Half := byteAt bytes (pre + 8 + len.toNat) ++ byteAt bytes (pre + 7 + len.toNat)
        if crc16 p body ≠ trailer then .error .crcMismatch
        else
          .frame
            { toAddr := byteAt bytes (pre + 2)
              fromAddr := byteAt bytes (pre + 3)
              id := byteAt bytes (pre + 4)
              flags := byteAt bytes (pre + 5)
              len := len
              payload := (bytes.drop (pre + 7)).take len.toNat }

/-- ENCODE (R172). -/
def execEncode (s : State) : Host.Outcome State Fault Refusal :=
  match encodeFrame s.cfg s.conf.sync s.hdrTo s.hdrFrom s.hdrId s.hdrFlags s.txPayload with
  | .payloadTooLong => .next (s.setResult .tooLong)
  | .image bytes =>
    .next (State.setResult .ok
      { s.fillBuffer .wireTx bytes with wireTxLen := BitVec.ofNat 10 bytes.length })

/-- The DEC_* and FILT_* registers after a DECODE with outcome `r` (R176). -/
def decodeRegisters : FrameResult → DecodeResult
  | .frame f => ⟨.ok, f.toAddr, f.fromAddr, f.id, f.flags, f.len, false, false⟩
  | .error e => ⟨decCodeOf e, 0#8, 0#8, 0#8, 0#8, 0#8, false, false⟩

/-- DECODE (R176). -/
def execDecode (s : State) : Host.Outcome State Fault Refusal :=
  if s.data.rxLen.toNat > wireBuf then .next (s.setResult .tooLong)
  else .next (State.setResult .ok { s with dec := decodeRegisters (decodeFrame s.cfg s.conf.sync s.rxImage) })

end Sys2Proof.Machine
end

