-- ==== Sys2Proof/Machine/Send.lean ====
section
/-! DEFINITION. The retransmission engine and the send commands (spec/43_send.md): SEND_RELIABLE,
SEND_UNRELIABLE, the TICK event and the timeout check of ITERATE. -/

namespace Sys2Proof.Machine

/-- `alloc_id()`: TX_SEQ is the `id`, and TX_SEQ advances mod 256 (R220). The `id` is `txSeq` of the state
before. -/
def State.allocId (s : State) : State := { s with txSeq := s.txSeq + 1 }

/-- Why a send command is refused, in the order of R221 and R224; none when it is accepted. -/
def State.sendRefusal (s : State) : Option CmdResult :=
  if s.run.fatal || s.run.stopped then some .notRunning
  else if s.pend.state = .awaitingAck then some .busy
  else if s.data.txLen.toNat > s.cfg.maxPayload then some .tooLong
  else none

/-- The wire image of the frame a send command builds to `dest` with the next `id` (R221, R224;
30_encoding.md R124). -/
def State.sendImage (s : State) (dest flags : Byte) : List Byte :=
  encodedBytes (encodeFrame s.cfg s.conf.sync dest s.conf.self s.txSeq flags s.txPayload)

/-- One transmission whose success is reported at once, as SENT or TX_ERROR (R223, R224, R230). -/
def State.sendOnce (image : List Byte) (id : Byte) (s : State) : State :=
  (s.transmit image).setSendResult (if s.transmitAnswer then .sent else .txError) id 1#8

/-- `first_attempt()` (R222). -/
def State.firstAttempt (s : State) : State :=
  let sent := (s.setPState .sending).transmit s.pend.image
  State.setSendResult .pending sent.pend.id 1#8
    (State.setPState .awaitingAck
      { sent with pend := { sent.pend with attempts := 1#8, remain := sent.pend.timeout } })

/-- `PSTATE <- FAILED; CNT_FAILED <- CNT_FAILED + 1` (R221, R227). -/
def State.countFailed (s : State) : State :=
  State.setPState .failed { s with tel := { s.tel with failed := s.tel.failed + 1 } }

/-- The Pending Send of an accepted SEND_RELIABLE to a unicast destination, before its first attempt
(R221). -/
def State.startPending (dest id maxRetries : Byte) (timeout : Ticks) (image : List Byte) (s : State) : State :=
  { s with pend := ⟨s.pend.state, dest, id, 0#8, maxRetries, timeout, 0#32, image⟩ }

/-- An accepted SEND_RELIABLE (R221). -/
def State.acceptReliable (dest maxRetries : Byte) (s : State) : State :=
  let id := s.txSeq
  let image := s.sendImage dest flagsReliable
  let started := s.allocId.setResult .ok
  if dest = broadcast then started.sendOnce image id
  else
    let pending := started.startPending dest id maxRetries s.ackTimeout image
    if maxRetries = 0#8 then pending.countFailed.setSendResult .failed id 0#8
    else pending.firstAttempt

/-- SEND_RELIABLE dest, maxRetries (R221). -/
def execSendReliable (dest maxRetries : Byte) (s : State) : Host.Outcome State Fault Refusal :=
  match s.sendRefusal with
  | some r => .next (s.setResult r)
  | none => .next (s.acceptReliable dest maxRetries)

/-- SEND_UNRELIABLE dest (R224). -/
def execSendUnreliable (dest : Byte) (s : State) : Host.Outcome State Fault Refusal :=
  match s.sendRefusal with
  | some r => .next (s.setResult r)
  | none =>
    let id := s.txSeq
    let image := s.sendImage dest flagsUnreliable
    .next ((s.allocId.sendOnce image id).setResult .ok)

/-- The TICK event (R225). -/
def State.tick (s : State) : State :=
  if s.pend.state = .awaitingAck ∧ 0#32 < s.pend.remain then
    { s with pend := { s.pend with remain := s.pend.remain - 1 } }
  else s

/-- A retransmission of the pending send (R226). -/
def State.retransmit (s : State) : State :=
  let counted := State.setPState .retrying { s with tel := { s.tel with retried := s.tel.retried + 1 } }
  let sent := counted.transmit s.pend.image
  let waiting := State.setPState .awaitingAck
    { sent with pend := { sent.pend with attempts := sent.pend.attempts + 1, remain := sent.pend.timeout } }
  { waiting with sendResult := { waiting.sendResult with attempts := waiting.pend.attempts } }

/-- `fail_send()` (R227). -/
def State.failSend (s : State) : State :=
  let failed := s.countFailed
  { failed with sendResult := { failed.sendResult with code := .failed } }

/-- `timeout_check()` (R226). -/
def State.timeoutCheck (s : State) : State :=
  if s.pend.state = .awaitingAck ∧ s.pend.remain = 0#32 then
    if s.pend.attempts < s.pend.max then s.retransmit else s.failSend
  else s

/-- The least time, in nanoseconds, from an accepted SEND_RELIABLE to its failure:
`maxRetries * ackTimeout * TICK_PERIOD` (R229; log 14). -/
def State.failureDelay (s : State) : Nat :=
  s.pend.max.toNat * s.pend.timeout.toNat * s.cfg.tickPeriod

end Sys2Proof.Machine
end

