-- ==== Sys2Proof/Machine/Receive.lean ====
section
/-! DEFINITION. The polling loop and the receive engine (spec/44_receive.md): the ITERATE event, duplicate
suppression, the acknowledgment matcher, ACK emission, delivery, and the command RXQ_POP. -/

namespace Sys2Proof.Machine

/-- `note_rssi(a, rssi)` (R264). -/
def State.noteRssi (a : Byte) (rssi : Rssi) (s : State) : State :=
  let noted : State := { s with tel := { s.tel with lastRssi := rssi, lastRssiValid := true } }
  noted.setPeer a { noted.peerAt a with rssi := rssi, rssiValid := true }

/-- `ack_match(F)` (R268). -/
def State.ackMatch (f : Frame) (s : State) : State :=
  if s.pend.state = .awaitingAck ∧ s.pend.dest = f.fromAddr ∧ s.pend.id = f.id then
    (s.setPState .acked).setSendResult .acked s.pend.id s.pend.attempts
  else s

/-- A data frame is a duplicate exactly when its sender's entry is valid and holds its `id` (R266). -/
def State.isDuplicate (s : State) (f : Frame) : Bool :=
  (s.peerAt f.fromAddr).idValid && (s.peerAt f.fromAddr).lastId == f.id

/-- `deliver(F, rssi)` (R271). -/
def State.deliver (f : Frame) (rssi : Rssi) (s : State) : State :=
  if s.rxqCount < s.cfg.rxqDepth then
    { s with
      rxq := s.rxq ++ [⟨f.fromAddr, f.len, f.payload, rssi⟩]
      tel := { s.tel with delivered := s.tel.delivered + 1 } }
  else { s with tel := { s.tel with qdrop := s.tel.qdrop + 1 } }

/-- A fresh data frame: it is delivered, and its `id` becomes the sender's last accepted one (R265, R266). -/
def State.acceptFresh (f : Frame) (rssi : Rssi) (s : State) : State :=
  let delivered := s.deliver f rssi
  delivered.setPeer f.fromAddr { delivered.peerAt f.fromAddr with lastId := f.id, idValid := true }

/-- The image of the ACK to sender `a` for `id` `i` (R269; 30_encoding.md R124). -/
def State.ackImage (s : State) (a i : Byte) : List Byte :=
  encodedBytes (encodeFrame s.cfg s.conf.sync a s.conf.self i flagsAck [])

/-- `emit_ack(a, i)` (R269): the answer of `transmitRaw` is ignored. -/
def State.emitAck (a i : Byte) (s : State) : State := s.callTransmitRaw (s.ackImage a i)

/-- `manage(F, rssi)`, the protocol step for a frame the filter accepted (R265). -/
def State.manage (f : Frame) (rssi : Rssi) (s : State) : State :=
  if ackFlag f.flags then s.ackMatch f
  else
    let taken := if s.isDuplicate f then s else s.acceptFresh f rssi
    if ackEligible f then taken.emitAck f.fromAddr f.id else taken

/-- The counter of a dropped image (R263; 10_state.md R45). -/
def State.countDrop (e : DecodeError) (s : State) : State :=
  match e with
  | .invalidSync => { s with tel := { s.tel with dropSync := s.tel.dropSync + 1 } }
  | .lengthMismatch => { s with tel := { s.tel with dropLen := s.tel.dropLen + 1 } }
  | .crcMismatch => { s with tel := { s.tel with dropCrc := s.tel.dropCrc + 1 } }

/-- What a decoded or dropped image does, before receive mode is restored (R263). -/
def State.rxOutcome (r : FrameResult) (rssi : Rssi) (s : State) : State :=
  match r with
  | .error e => s.countDrop e
  | .frame f => if s.accepts f.toAddr then (s.noteRssi f.fromAddr rssi).manage f rssi else s

/-- `rx_process(bytes, rssi)` (R263). -/
def State.rxProcess (bytes : List Byte) (rssi : Rssi) (s : State) : State :=
  (s.rxOutcome (decodeFrame s.cfg s.conf.sync bytes) rssi).callSetMode .receive

/-- `loop_exit()` (R261). -/
def State.loopExit (s : State) : State :=
  let released := s.callSetMode .idle
  { released with run := { released.run with stopped := true } }

/-- The receive step of one iteration: poll, and process one frame if there is one (R260, R262). -/
def State.poll (s : State) : State :=
  let asked := s.callFrameReady
  if s.readyAnswer then
    asked.callReceiveRaw.rxProcess asked.receiveAnswer.1 asked.receiveAnswer.2
  else asked

/-- The ITERATE event (R260). -/
def State.iterate (s : State) : State :=
  if s.run.fatal || s.run.stopped then s
  else if s.run.stopReq && s.pend.state != .awaitingAck then s.loopExit
  else s.poll.timeoutCheck

/-- RXQ_POP (R270). -/
def execRxqPop (s : State) : Host.Outcome State Fault Refusal :=
  match s.rxq with
  | [] => .next (State.setResult .empty { s with rxqOut := { s.rxqOut with valid := false } })
  | rec :: rest =>
    let popped : State := { s with rxq := rest, rxqOut := ⟨rec.fromAddr, rec.len, rec.rssi, true⟩ }
    .next ((popped.fillBuffer .rxqData rec.payload).setResult .ok)

end Sys2Proof.Machine
end

