-- ==== Sys2Proof/Machine/Dispatch.lean ====
section
/-! DEFINITION. The meaning of each command, by name (spec/30_encoding.md R114). -/

namespace Sys2Proof.Machine

def exec (i : Instr) (s : State) : Host.Outcome State Fault Refusal :=
  match i with
  | .nop => Sys2Proof.Machine.execNop s
  | .crcInit => Sys2Proof.Machine.execCrcInit s
  | .crcByte byte => Sys2Proof.Machine.execCrcByte byte s
  | .crcCheck => Sys2Proof.Machine.execCrcCheck s
  | .setAddr self promiscuous => Sys2Proof.Machine.execSetAddr self promiscuous s
  | .setSync => Sys2Proof.Machine.execSetSync s
  | .encode => Sys2Proof.Machine.execEncode s
  | .decode => Sys2Proof.Machine.execDecode s
  | .filter => Sys2Proof.Machine.execFilter s
  | .sendReliable dest maxRetries => Sys2Proof.Machine.execSendReliable dest maxRetries s
  | .sendUnreliable dest => Sys2Proof.Machine.execSendUnreliable dest s
  | .stop => Sys2Proof.Machine.execStop s
  | .rxqPop => Sys2Proof.Machine.execRxqPop s

end Sys2Proof.Machine
end

