-- ==== Sys2Proof/Machine/Reset.lean ====
section
/-! DEFINITION. The RESET event (spec/70_reset_and_hazards.md R350, R351). -/

namespace Sys2Proof.Machine

/-- Every piece of state of 10_state.md R48 at its reset value. The parameters, the trace (an observation,
R46; log 10), the transceiver's answers, the events still to come and the last bus reply are no state of
R48 and stay. -/
def State.clearRegisters (s : State) : State :=
  { State.cleared s.cfg with trace := s.trace, trx := s.trx, events := s.events, busReply := s.busReply }

/-- RESET (R350): the reset values, then `TRX.init()`; when it fails FATAL is set and no further call is
made (R351), else the transceiver is told the address and receive mode. -/
def State.resetEvent (s : State) : State :=
  let cleared := s.clearRegisters
  let called := cleared.callInit
  if cleared.initAnswer then called.callSetAddress.callSetMode .receive
  else { called with run := { called.run with fatal := true } }

end Sys2Proof.Machine
end

