-- ==== Sys2Proof/Machine/Events.lean ====
section
/-! DEFINITION. The five events (spec/00_scope.md R20), and what a CMD write executes
(spec/30_encoding.md R112). -/

namespace Sys2Proof.Machine

/-- `execute_command(w)` (30_encoding.md R112): a legal word runs its command; an illegal one writes
CMD_RESULT = ILLEGAL_CMD and changes nothing else. -/
def State.executeCommand (w : Word) (s : State) : Host.Outcome State Fault Refusal :=
  match decode w with
  | .command i => exec i s
  | .illegal _ => .next (s.setResult .illegalCmd)

/-- HOST_WRITE(addr, v) (20_memory.md R84). -/
def State.hostWrite (addr size : Nat) (v : Word) (s : State) : Host.Outcome State Fault Refusal :=
  match locate s.cfg addr size with
  | .error cause => .fault (.busError addr cause)
  | .reg r =>
    let replied : State := { s with busReply := .written }
    if r = .cmd then replied.executeCommand v else .next (replied.storeReg r v)

/-- One event, atomic (00_scope.md R20). -/
def State.handle (e : Event) (s : State) : Host.Outcome State Fault Refusal :=
  match e with
  | .hostWrite addr size v => s.hostWrite addr size v
  | .hostRead addr size => s.hostRead addr size
  | .tick => .next s.tick
  | .iterate => .next s.iterate
  | .reset => .next s.resetEvent

/-- The block after one event, whether the event was processed or was an access answered with an error: an
error never stops the block (60_exceptions.md R329; log 6). -/
def State.proceed (e : Event) (s : State) : State :=
  match s.handle e with
  | .next t => t
  | .fault (.busError addr _) => s.afterBusError addr
  | .refused _ => s

/-- The block after a list of events, the first one first. -/
def State.runEvents (es : List Event) (s : State) : State := es.foldl (fun s e => s.proceed e) s

/-- Take the oldest event the environment has placed and process it. Between events the block does nothing
(60_exceptions.md R336; log 4). -/
def State.takeEvent (s : State) : Host.Outcome State Fault Refusal :=
  match s.events with
  | [] => .next s
  | e :: rest => ({ s with events := rest }).handle e

/-- The bus write that carries a command word: a 4-byte write to CMD, offset 0x000 (30_encoding.md R110;
20_memory.md R81). -/
def State.cmdWrite (s : State) (w : Word) : Event := .hostWrite s.cfg.blockBase 4 w

end Sys2Proof.Machine
end

