-- ==== Sys2Proof/Machine/Step.lean ====
section
/-! DEFINITION. The step: one event (spec/00_scope.md R20). -/

namespace Sys2Proof.Machine

/-- One step: the next event the environment has placed, if there is one. -/
def step (s : State) : Host.Outcome State Fault Refusal := s.takeEvent

/-- The block after a step, whether the event was processed or was an access answered with an error (log 6). -/
def State.resume (s : State) : State :=
  match s.events with
  | [] => s
  | e :: rest => ({ s with events := rest }).proceed e

/-- `s` with the command word `w` (of `nbits` bits, the rest 0) as the next thing the host writes to CMD, so
that the next step decodes and runs exactly it (30_encoding.md R110). -/
def State.withFetchWord (s : State) (nbits w : Nat) : State :=
  { s with events := s.cmdWrite (BitVec.ofNat 32 (w % 2 ^ nbits)) :: s.events }

end Sys2Proof.Machine
end

