-- ==== Sys2Proof/Machine/Assembler.lean ====
section
/-! DEFINITION. Host accesses in the notation of spec/30_encoding.md R116, and the pseudo-commands of R117 as
the event sequences they expand to. -/

namespace Sys2Proof.Machine

/-- `WR off, v` (R116). -/
def wr (p : Params) (off : Nat) (v : Word) : Event := .hostWrite (p.blockBase + off) 4 v

/-- `RD off` (R116). -/
def rd (p : Params) (off : Nat) : Event := .hostRead (p.blockBase + off) 4

/-- A command: one write of its word to CMD (R110, R116). -/
def cmd (p : Params) (i : Instr) : Event := wr p 0x000 (encode i)

/-- `LI_ARG v` (R117). -/
def liArg (p : Params) (v : Word) : List Event := [wr p 0x004 v]

/-- `CRC_CHECK_V v` (R117). -/
def crcCheckV (p : Params) (v : Word) : List Event := liArg p v ++ [cmd p .crcCheck]

/-- `SET_SYNC_V v` (R117). -/
def setSyncV (p : Params) (v : Word) : List Event := liArg p v ++ [cmd p .setSync]

/-- `CRC_BLOCK b0, ..., bn-1` (R117). -/
def crcBlock (p : Params) (bytes : List Byte) : List Event :=
  cmd p .crcInit :: bytes.map fun b => cmd p (.crcByte b)

/-- Word `m` of a payload, with 0 past its end (R117, LOAD_PAYLOAD). -/
def payloadWord (payload : List Byte) (m : Nat) : Word :=
  wordOfLanes (payload.getD (4 * m) 0#8) (payload.getD (4 * m + 1) 0#8) (payload.getD (4 * m + 2) 0#8)
    (payload.getD (4 * m + 3) 0#8)

/-- `LOAD_PAYLOAD p` (R117). -/
def loadPayload (p : Params) (payload : List Byte) : List Event :=
  ((List.range ((payload.length + 3) / 4)).map fun m => wr p (0x800 + 4 * m) (payloadWord payload m)) ++
    [wr p 0x028 (BitVec.ofNat 32 payload.length)]

/-- `SEND_RELIABLE_T dest, maxRetries, ackTimeout` (R117). -/
def sendReliableT (p : Params) (dest maxRetries : Byte) (ackTimeout : Word) : List Event :=
  liArg p ackTimeout ++ [cmd p (.sendReliable dest maxRetries)]

/-- `WAIT_SEND` when its read of BUSY comes out 0 at the `n`-th STATUS read (R117): that many reads of
STATUS, then one of SEND_RESULT. The environment's events interleave with them (log 19). -/
def waitSend (p : Params) (n : Nat) : List Event := List.replicate n (rd p 0x008) ++ [rd p 0x010]

end Sys2Proof.Machine
end

