-- ==== Sys2Proof/Machine/Network.lean ====
section
/-! DEFINITION. Several nodes on one channel (spec/60_exceptions.md R334): each node is a separate link block,
and what it hears is what the environment places among its transceiver's answers. -/

namespace Sys2Proof.Machine

/-- The nodes of one channel. Nodes share no state, and need not have distinct SELF values (R334). -/
structure Network where
  nodes : List State
deriving DecidableEq, Repr

/-- An event at node `k`; every other node keeps its state (R334). -/
def Network.event (k : Nat) (e : Event) (net : Network) : Network :=
  ⟨net.nodes.modify k fun s => s.proceed e⟩

/-- The images a node has transmitted, oldest first (10_state.md R46). -/
def State.transmitted (s : State) : List (List Byte) :=
  s.trace.filterMap fun c => match c with
    | .transmitRaw image => some image
    | .init => none
    | .setAddress _ _ => none
    | .setMode _ => none
    | .frameReady => none
    | .receiveRaw => none

/-- The channel lets node `k`'s next poll that has no fixed answer yet find `bytes`. The channel may deliver
any image of another node zero or more times, in any order, with any bytes changed, and may deliver noise
(R334), so `bytes` is any byte sequence and is not tied to `State.transmitted`. -/
def Network.deliver (k : Nat) (bytes : List Byte) (rssi : Rssi) (net : Network) : Network :=
  ⟨net.nodes.modify k fun s =>
    { s with
      trx := { s.trx with readies := s.trx.readies ++ [true], receives := s.trx.receives ++ [(bytes, rssi)] } }⟩

end Sys2Proof.Machine
end

