-- ==== Sys2Proof/WellFormed.lean ====
section
/-! DEFINITION. What is well formed: a command, an assembler line, a frame, a set of parameters. -/

namespace Sys2Proof

/-- A command is well formed when its operands have the widths of R111. The operands' types are these
widths, so no ill-formed command can be written; the checks that can fail are those on assembler lines,
frames and parameters below, and the decoder's on words. -/
def Instr.wellFormed : Instr → Bool
  | .nop => true
  | .crcInit => true
  | .crcByte _ => true
  | .crcCheck => true
  | .setAddr _ _ => true
  | .setSync => true
  | .encode => true
  | .decode => true
  | .filter => true
  | .sendReliable _ _ => true
  | .sendUnreliable _ => true
  | .stop => true
  | .rxqPop => true

/-- An assembler line is well formed when its mnemonic is one of R116, it has that mnemonic's number of
operands, and each operand fits its field (R111; promiscuous is 0 or 1). -/
def AsmLine.wellFormed (l : AsmLine) : Bool :=
  match l.operands with
  | [] => ["NOP", "CRC_INIT", "CRC_CHECK", "SET_SYNC", "ENCODE", "DECODE", "FILTER", "STOP", "RXQ_POP"].contains l.mnemonic
  | [a] => ["CRC_BYTE", "SEND_UNRELIABLE"].contains l.mnemonic && decide (a < 256)
  | [a, b] =>
    (l.mnemonic == "SET_ADDR" && decide (a < 256) && decide (b < 2)) ||
      (l.mnemonic == "SEND_RELIABLE" && decide (a < 256) && decide (b < 256))
  | _ => false

/-- A frame is well formed when its payload has `len` bytes and `len` is at most MAX_PAYLOAD (R120). -/
abbrev Frame.wellFormed (maxPayload : Nat) (f : Frame) : Prop :=
  f.payload.length = f.len.toNat ∧ f.len.toNat ≤ maxPayload

/-- The ranges of the parameters (00_scope.md R10, R11, R14, R15; 20_memory.md R80; the table of
92_eei_decisions.md). -/
abbrev Params.wellFormed (p : Params) : Prop :=
  p.blockBase % 4096 = 0 ∧ p.maxPayload ≤ 255 ∧ p.preambleLen ≤ 248 ∧ 1 ≤ p.tW ∧ p.tW ≤ 32 ∧
    0 < p.tickPeriod ∧ 1 ≤ p.rxqDepth ∧ p.rxqDepth ≤ 255 ∧ 1 ≤ p.rssiW ∧ p.rssiW ≤ 15

end Sys2Proof
end

