-- ==== Sys2Proof/Safety.lean ====
section
/-! DEFINITION. What holds of every state of a run, and the words the statements are written in. -/

namespace Sys2Proof.Machine

/-- The invariant of the link block. Every state just after a reset has it and every step keeps it. -/
structure Inv (s : State) : Prop where
  /-- The parameters lie in their ranges (92_eei_decisions.md, the parameter table). -/
  params : s.cfg.wellFormed
  /-- The byte buffers are in canonical form (log 8). -/
  canonical : Memory.wf s.mem = true
  /-- Only offsets of the four buffers are listed (20_memory.md R81). -/
  inBuffers : ∀ c ∈ s.mem, 0x800 ≤ c.1 ∧ c.1 < 0xE00
  /-- SENDING and RETRYING are never seen at an event boundary (10_state.md R36). -/
  notTransient : s.pend.state ≠ .sending ∧ s.pend.state ≠ .retrying
  /-- P_ATTEMPTS never exceeds P_MAX (43_send.md R231). -/
  attempts : s.pend.attempts ≤ s.pend.max
  /-- While a send is pending: one attempt at least was made, the destination is unicast, and SEND_RESULT
  holds its id and attempts (43_send.md R222, R223, R226). -/
  awaiting : s.pend.state = .awaitingAck →
    1#8 ≤ s.pend.attempts ∧ s.pend.dest ≠ broadcast ∧ s.sendResult = ⟨.pending, s.pend.id, s.pend.attempts⟩
  /-- SR_CODE = PENDING exactly while BUSY (60_exceptions.md R321). -/
  pendingIffBusy : s.sendResult.code = .pending ↔ s.pend.state = .awaitingAck
  /-- P_TIMEOUT has T_W bits (10_state.md R37). -/
  timeoutWidth : s.pend.timeout.toNat < 2 ^ s.cfg.tW
  /-- P_REMAIN counts down from P_TIMEOUT (43_send.md R222, R225, R226). -/
  remainBound : s.pend.remain ≤ s.pend.timeout
  /-- P_IMG has at most WIRE_BUF bytes (10_state.md R37). -/
  imageBound : s.pend.image.length ≤ wireBuf
  /-- RXQ holds at most RXQ_DEPTH records (10_state.md R40). -/
  queueBound : s.rxqCount ≤ s.cfg.rxqDepth
  /-- A record's payload has `len` bytes, at most MAX_PAYLOAD, and its reading RSSI_W bits (10_state.md
  R40; 41_codec.md R174). -/
  records : ∀ r ∈ s.rxq,
    r.payload.length = r.len.toNat ∧ r.len.toNat ≤ s.cfg.maxPayload ∧ r.rssi.toNat < 2 ^ s.cfg.rssiW
  /-- Every stored reading has RSSI_W bits (10_state.md R39, R40, R45). -/
  readings : (∀ a, (s.peerAt a).rssi.toNat < 2 ^ s.cfg.rssiW) ∧ s.tel.lastRssi.toNat < 2 ^ s.cfg.rssiW ∧
    s.rxqOut.rssi.toNat < 2 ^ s.cfg.rssiW
  /-- The loop has exited only after a STOP, with no send pending (44_receive.md R260, R261). -/
  stopped : s.run.stopped = true → s.run.stopReq = true ∧ s.pend.state ≠ .awaitingAck
  /-- A block whose transceiver failed to start never ran (70_reset_and_hazards.md R351). -/
  fatal : s.run.fatal = true → s.run.stopped = false ∧ s.pend.state = .idle
  /-- WIRE_TX_LEN is at most WIRE_BUF (30_encoding.md R125). -/
  wireTxBound : s.wireTxLen.toNat ≤ wireBuf
  /-- The decoded header is 0 unless the last DECODE gave a frame (41_codec.md R176). -/
  decoded : s.dec.code ≠ .ok →
    s.dec.toAddr = 0#8 ∧ s.dec.fromAddr = 0#8 ∧ s.dec.id = 0#8 ∧ s.dec.flags = 0#8 ∧ s.dec.len = 0#8
  /-- A filter verdict stands only beside a decoded frame (41_codec.md R176; 42_filter_config.md R201). -/
  verdict : (s.dec.filtValid = true → s.dec.code = .ok) ∧ (s.dec.filtAccept = true → s.dec.filtValid = true)

/-- The state before an event of a sequence, and so after the events before it (00_scope.md R20: the
environment chooses the order of events). -/
def State.afterEvents (es : Nat → Event) : Nat → State → State
  | 0, s => s
  | n + 1, s => (State.afterEvents es n s).proceed (es n)

/-- The fairness assumption of 70_reset_and_hazards.md R355: ITERATE occurs infinitely often, and so does
TICK. -/
def FairEvents (es : Nat → Event) : Prop :=
  (∀ n, ∃ m, n ≤ m ∧ es m = .iterate) ∧ (∀ n, ∃ m, n ≤ m ∧ es m = .tick)

/-- The events by which an unanswered reliable send of `maxRetries` transmissions fails, with no more than
are needed: for each transmission `ackTimeout` TICKs and then an ITERATE (43_send.md R229). -/
def failSchedule (maxRetries ackTimeout : Nat) : List Event :=
  (List.replicate maxRetries (List.replicate ackTimeout .tick ++ [.iterate])).flatten

/-- How many of the events, from `s` on, are TICKs that decrement P_REMAIN (43_send.md R225, R229). -/
def State.decrements (s : State) : List Event → Nat
  | [] => 0
  | e :: rest =>
    (if e = .tick ∧ s.pend.state = .awaitingAck ∧ s.pend.remain ≠ 0#32 then 1 else 0) + (s.proceed e).decrements rest

/-- A 4-byte read at offset `off` of the register space answers `w` and changes nothing else (20_memory.md R83,
R84). -/
def State.reads (s : State) (off : Nat) (w : Word) : Prop :=
  s.handle (.hostRead (s.cfg.blockBase + off) 4) = .next { s with busReply := .value w }

/-- The word `word` written to CMD runs the command `i` (30_encoding.md R112). -/
def WordRuns (word : Word) (i : Instr) : Prop := ∀ s : State, s.executeCommand word = exec i s

/-- Of the words whose OP field is `op`, those with another value under `mask` than `value` are illegal:
they write ILLEGAL_CMD and change nothing else (30_encoding.md R112, R115). -/
def OthersIllegal (op : Byte) (value mask : Word) : Prop :=
  ∀ (w : Word) (s : State), opField w = op → w &&& mask ≠ value →
    s.executeCommand w = .next { s with cmdResult := .illegalCmd }

/-- The single registers' offsets and the windows that R81 leaves unmapped: 0x058, 0x05C, 0x07C to 0x3FC
and 0xE00 to 0xFFC. -/
def UnmappedOffset (off : Nat) : Prop :=
  off = 0x058 ∨ off = 0x05C ∨ (0x07C ≤ off ∧ off ≤ 0x3FC) ∨ (0xE00 ≤ off ∧ off ≤ 0xFFC)

/-- The image with bit `j` of byte `k` flipped (41_codec.md R177). -/
def flipBit (image : List Byte) (k j : Nat) : List Byte :=
  image.set k (byteAt image k ^^^ (1#8 <<< j))

/-- The polling loop runs its next iteration in full, that iteration's poll finds an image, `decode` answers
`r` for it, and its reading is `rssi` (44_receive.md R260, R263). -/
def State.hears (s : State) (r : FrameResult) (rssi : Rssi) : Prop :=
  s.running = true ∧ (s.run.stopReq = true → s.pend.state = .awaitingAck) ∧ s.readyAnswer = true ∧
    decodeFrame s.cfg s.conf.sync s.callFrameReady.receiveAnswer.1 = r ∧ s.callFrameReady.receiveAnswer.2 = rssi

/-- The next poll hears an ACK frame that the filter accepts and that carries the pending send's key
(43_send.md R228; 44_receive.md R268). -/
def State.hearsItsAck (s : State) : Prop :=
  ∃ f rssi, s.hears (.frame f) rssi ∧ s.accepts f.toAddr = true ∧ f.flags.getLsbD 0 = true ∧
    f.fromAddr = s.pend.dest ∧ f.id = s.pend.id

/-- The state after the two calls by which a poll takes an image, `frameReady` and `receiveRaw`
(44_receive.md R260). -/
def State.tookImage (s : State) : State := s.callFrameReady.callReceiveRaw

/-- The loop runs its next iteration in full and its poll finds nothing (44_receive.md R260). -/
def State.hearsNothing (s : State) : Prop :=
  s.running = true ∧ (s.run.stopReq = true → s.pend.state = .awaitingAck) ∧ s.readyAnswer = false

/-- The commands of the CRC unit (40_crc.md R152 to R154). -/
def isCrcCommand : Instr → Bool
  | .nop => false
  | .crcInit => true
  | .crcByte _ => true
  | .crcCheck => true
  | .setAddr _ _ => false
  | .setSync => false
  | .encode => false
  | .decode => false
  | .filter => false
  | .sendReliable _ _ => false
  | .sendUnreliable _ => false
  | .stop => false
  | .rxqPop => false

/-- The send commands (43_send.md R221, R224). -/
def isSendCommand : Instr → Bool
  | .nop => false
  | .crcInit => false
  | .crcByte _ => false
  | .crcCheck => false
  | .setAddr _ _ => false
  | .setSync => false
  | .encode => false
  | .decode => false
  | .filter => false
  | .sendReliable _ _ => true
  | .sendUnreliable _ => true
  | .stop => false
  | .rxqPop => false

/-- A table entry without its reading, which is telemetry (10_state.md R39, R45). -/
def PeerEntry.withoutReading (e : PeerEntry) : PeerEntry := { e with rssiValid := false, rssi := 0#15 }

/-- Everything but the telemetry registers: the counters, the last reading and the per-peer readings
(10_state.md R45; 45_control_telemetry.md R303). -/
def State.withoutTelemetry (s : State) : State :=
  { s with
    tel := ⟨0#32, 0#32, 0#32, 0#32, 0#32, 0#32, 0#32, 0#15, false⟩
    peer := s.peer.map PeerEntry.withoutReading }

end Sys2Proof.Machine
end

