-- ==== Sys2Proof/Certificates/Slice0/Obligations.lean ====
section
/-! DEFINITION. The statements for the provers, from the numbered rules of spec/. -/

open Sys2Proof Sys2Proof.Machine

/-! ### Encoding -/

/-- Decoding the word of a command gives the command back, with every operand at every value (30_encoding.md
R111, R112, R114). -/
def Obligations.DecodeOfEncode : Prop := ∀ i : Instr, decode (encode i) = .command i

/-- A word that decodes to a command is that command's word: each command has one word, and no bit of it is
dropped (30_encoding.md R111, R114, R115). -/
def Obligations.EncodeOfDecode : Prop :=
  ∀ (w : Word) (i : Instr), decode w = .command i → encode i = w

/-- At most one row of the opcode map matches a word. A word that a row matches runs the row's command; a word
that no row matches writes ILLEGAL_CMD and changes nothing else (30_encoding.md R112). -/
def Obligations.CommandWordHasOneRow : Prop :=
  ∀ (w : Word) (s : State),
    (opcodeTable.filter fun r => r.admits w).length ≤ 1 ∧
    (∀ r ∈ opcodeTable, w &&& r.mask = r.value →
      s.executeCommand w = exec (r.build (w.extractLsb' 8 8) (w.extractLsb' 16 8)) s) ∧
    ((∀ r ∈ opcodeTable, w &&& r.mask ≠ r.value) →
      s.executeCommand w = .next { s with cmdResult := .illegalCmd })

/-- One word of every command, written out from the encodings of 30_encoding.md R114, and three illegal words, from
R115. -/
def Obligations.WordsOfTheSpecDecode : Prop :=
  decode 0x00000000#32 = .command .nop ∧
  decode 0x00000001#32 = .command .crcInit ∧
  decode 0x00003102#32 = .command (.crcByte 0x31#8) ∧
  decode 0x00000003#32 = .command .crcCheck ∧
  decode 0x00010710#32 = .command (.setAddr 0x07#8 true) ∧
  decode 0x00000310#32 = .command (.setAddr 0x03#8 false) ∧
  decode 0x00000011#32 = .command .setSync ∧
  decode 0x00000020#32 = .command .encode ∧
  decode 0x00000021#32 = .command .decode ∧
  decode 0x00000022#32 = .command .filter ∧
  decode 0x00030930#32 = .command (.sendReliable 0x09#8 0x03#8) ∧
  decode 0x0000FF31#32 = .command (.sendUnreliable 0xFF#8) ∧
  decode 0x00000038#32 = .command .stop ∧
  decode 0x00000040#32 = .command .rxqPop ∧
  decode 0x01000030#32 = .illegal .reservedBits ∧
  decode 0x00020010#32 = .illegal .reservedBits ∧
  decode 0x00000004#32 = .illegal .unassignedOp

/-- Every unassigned OP is illegal, and so is every word of a listed OP with a 1 in a bit that its mask covers
outside OP; an illegal word is never executed as a NOP: it writes ILLEGAL_CMD (30_encoding.md R115). -/
def Obligations.ReservedEncodingsAreIllegal : Prop :=
  ∀ (w : Word) (s : State),
    (((0x04#8 ≤ opField w ∧ opField w ≤ 0x0F#8) ∨ (0x12#8 ≤ opField w ∧ opField w ≤ 0x1F#8) ∨
        (0x23#8 ≤ opField w ∧ opField w ≤ 0x2F#8) ∨ (0x32#8 ≤ opField w ∧ opField w ≤ 0x37#8) ∨
        (0x39#8 ≤ opField w ∧ opField w ≤ 0x3F#8) ∨ 0x41#8 ≤ opField w) →
      decode w = .illegal .unassignedOp ∧ s.executeCommand w = .next { s with cmdResult := .illegalCmd }) ∧
    (∀ r ∈ opcodeTable, opField w = opField r.value → w &&& r.mask ≠ r.value →
      decode w = .illegal .reservedBits ∧ s.executeCommand w = .next { s with cmdResult := .illegalCmd })

/-- A step whose next event is a write of a command's word to CMD is the command, run on the state in which the
event is taken and the bus has answered (30_encoding.md R110, R112; 20_memory.md R84). -/
def Obligations.StepRunsTheDecodedCommand : Prop :=
  (∀ (s : State) (w : Word) (i : Instr) (rest : List Event),
    s.events = .hostWrite s.cfg.blockBase 4 w :: rest → decode w = .command i →
    step s = exec i { s with events := rest, busReply := .written }) ∧
  (∀ (s : State) (w : Word) (i : Instr), decode w = .command i →
    step (s.withFetchWord 32 w.toNat) = exec i { s with busReply := .written })

/-! ### The register space -/

/-- An access inside the block's window faults exactly when it is not 4 bytes wide, not at a multiple of 4, or
at an unmapped offset; the fault changes no state and no register, and the bus gives the error response, with 0
for a read (60_exceptions.md R324, 20_memory.md R84). -/
def Obligations.BusErrorExactlyOnBadAccess : Prop :=
  ∀ (s : State) (addr size : Nat) (v : Word),
    s.cfg.blockBase ≤ addr → addr < s.cfg.blockBase + 4096 →
    ((size ≠ 4 ∨ (addr - s.cfg.blockBase) % 4 ≠ 0 ∨ UnmappedOffset (addr - s.cfg.blockBase)) ↔
      ∃ cause, locate s.cfg addr size = .error cause) ∧
    ∀ cause, locate s.cfg addr size = .error cause →
      s.handle (.hostRead addr size) = .fault (.busError addr cause) ∧
      s.handle (.hostWrite addr size v) = .fault (.busError addr cause) ∧
      s.proceed (.hostRead addr size) = { s with busReply := .error addr 0#32 } ∧
      s.proceed (.hostWrite addr size v) = { s with busReply := .error addr 0#32 }

/-- The access kinds of 20_memory.md R83. A read returns the register's value and changes nothing; CMD reads 0
and a write to it executes the command; a write to an RO register is ignored; a write to an RW register reads
back as the written bits of its fields, every other mapped register reads as before, and every byte of the
buffers outside the written word is unchanged. -/
def Obligations.RegisterAccessKinds : Prop :=
  ∀ (s : State) (off : Nat) (r : Reg) (v : Word),
    Memory.wf s.mem = true → off < 4096 → off % 4 = 0 → regAt off = some r →
    s.handle (.hostRead (s.cfg.blockBase + off) 4) = .next { s with busReply := .value (s.view r) } ∧
    (r = .cmd → s.view r = 0#32 ∧
      s.handle (.hostWrite (s.cfg.blockBase + off) 4 v) =
        ({ s with busReply := .written } : State).executeCommand v) ∧
    (r.access = .readOnly →
      s.handle (.hostWrite (s.cfg.blockBase + off) 4 v) = .next { s with busReply := .written }) ∧
    (r.access = .readWrite →
      ∃ t, s.handle (.hostWrite (s.cfg.blockBase + off) 4 v) = .next t ∧
        t = { s with data := t.data, mem := t.mem, busReply := .written } ∧
        t.view r = (if r = .txLen then v &&& 0xFF#32 else if r = .rxLen then v &&& 0x3FF#32 else v) ∧
        (∀ (off' : Nat) (r' : Reg), off' % 4 = 0 → off' ≠ off → regAt off' = some r' → t.view r' = s.view r') ∧
        (∀ a, a < off ∨ off + 4 ≤ a → Memory.read t.mem a = Memory.read s.mem a))

/-- The bits of STATUS (20_memory.md R82). -/
def Obligations.StatusBits : Prop :=
  ∀ s : State,
    (s.view .status).getLsbD 0 = (s.pend.state == .awaitingAck) ∧
    (s.view .status).getLsbD 1 = s.run.fatal ∧
    (s.view .status).getLsbD 2 = s.run.stopReq ∧
    (s.view .status).getLsbD 3 = s.run.stopped ∧
    (s.view .status).getLsbD 4 = decide (0 < s.rxq.length) ∧
    (s.view .status).getLsbD 5 = (s.rxq.length == s.cfg.rxqDepth) ∧
    (s.view .status).extractLsb' 8 3 = s.pend.state.code ∧
    (s.view .status).extractLsb' 6 2 = 0#2 ∧
    (s.view .status).extractLsb' 11 21 = 0#21

/-- The register map: at which offset a read answers which register, where each field of it lies, that every bit no
field names reads 0, and the codes of PSTATE, CMD_RESULT, SR_CODE and DEC_CODE (20_memory.md R81, R86; 10_state.md
R36, R43; 60_exceptions.md R320, R321). The layout of STATUS is StatusBits. -/
def Obligations.RegisterLayouts : Prop :=
  (∀ s : State,
    (∀ e ∈ ([(0x000, .cmd), (0x004, .arg), (0x008, .status), (0x00C, .cmdResult), (0x010, .sendResult),
        (0x014, .config), (0x018, .txSeq), (0x01C, .pendA), (0x020, .pendTimeout), (0x024, .pendRemain),
        (0x028, .txLen), (0x02C, .hdr), (0x030, .crcAcc), (0x034, .crcFinal), (0x038, .rxLen), (0x03C, .decStatus),
        (0x040, .decHdr), (0x044, .decLen), (0x048, .wireTxLen), (0x04C, .rxqOut), (0x050, .rxqCount),
        (0x054, .lastRssi), (0x060, .cntDelivered), (0x064, .cntDropSync), (0x068, .cntDropLen),
        (0x06C, .cntDropCrc), (0x070, .cntRetried), (0x074, .cntFailed), (0x078, .cntQdrop)] : List (Nat × Reg)),
      s.reads e.1 (s.view e.2)) ∧
    (∀ a : Byte, s.reads (0x400 + 4 * a.toNat) (s.view (.peerW a))) ∧
    (∀ m < 64, s.reads (0x800 + 4 * m) (s.view (.bufferWord .txBuf m)) ∧
      s.reads (0x900 + 4 * m) (s.view (.bufferWord .rxqData m))) ∧
    (∀ m < 128, s.reads (0xA00 + 4 * m) (s.view (.bufferWord .wireTx m)) ∧
      s.reads (0xC00 + 4 * m) (s.view (.bufferWord .wireRx m)))) ∧
  (∀ s : State,
    s.view .arg = s.data.arg ∧ s.view .cmdResult = s.cmdResult.code.setWidth 32 ∧
    s.view .txSeq = s.txSeq.setWidth 32 ∧ s.view .pendTimeout = s.pend.timeout ∧ s.view .pendRemain = s.pend.remain ∧
    (Inv s → ∀ k, s.cfg.tW ≤ k →
      (s.view .pendTimeout).getLsbD k = false ∧ (s.view .pendRemain).getLsbD k = false) ∧
    s.view .txLen = s.data.txLen.setWidth 32 ∧ s.view .crcAcc = s.crc.acc.setWidth 32 ∧
    s.view .rxLen = s.data.rxLen.setWidth 32 ∧ s.view .decLen = s.dec.len.setWidth 32 ∧
    s.view .wireTxLen = s.wireTxLen.setWidth 32 ∧ s.view .rxqCount = (BitVec.ofNat 8 s.rxq.length).setWidth 32 ∧
    s.view .cntDelivered = s.tel.delivered ∧ s.view .cntDropSync = s.tel.dropSync ∧
    s.view .cntDropLen = s.tel.dropLen ∧ s.view .cntDropCrc = s.tel.dropCrc ∧ s.view .cntRetried = s.tel.retried ∧
    s.view .cntFailed = s.tel.failed ∧ s.view .cntQdrop = s.tel.qdrop) ∧
  (∀ (s : State) (a : Byte) (b : Buffer) (m : Nat),
    ((s.view .config).extractLsb' 0 8 = s.conf.self ∧ (s.view .config).getLsbD 8 = s.conf.promisc ∧
      (s.view .config).extractLsb' 9 7 = 0#7 ∧ (s.view .config).extractLsb' 16 16 = s.conf.sync) ∧
    ((s.view .sendResult).extractLsb' 0 8 = s.sendResult.code.code ∧
      (s.view .sendResult).extractLsb' 8 8 = s.sendResult.id ∧
      (s.view .sendResult).extractLsb' 16 8 = s.sendResult.attempts ∧ (s.view .sendResult).extractLsb' 24 8 = 0#8) ∧
    ((s.view .pendA).extractLsb' 0 8 = s.pend.dest ∧ (s.view .pendA).extractLsb' 8 8 = s.pend.id ∧
      (s.view .pendA).extractLsb' 16 8 = s.pend.attempts ∧ (s.view .pendA).extractLsb' 24 8 = s.pend.max) ∧
    ((s.view .hdr).extractLsb' 0 8 = s.hdrTo ∧ (s.view .hdr).extractLsb' 8 8 = s.hdrFrom ∧
      (s.view .hdr).extractLsb' 16 8 = s.hdrId ∧ (s.view .hdr).extractLsb' 24 8 = s.hdrFlags) ∧
    ((s.view .crcFinal).extractLsb' 0 16 = s.crc.acc ^^^ s.cfg.crcXorOut ∧
      (s.view .crcFinal).getLsbD 16 = s.crc.matched ∧ (s.view .crcFinal).extractLsb' 17 15 = 0#15) ∧
    ((s.view .decStatus).extractLsb' 0 3 = s.dec.code.code ∧ (s.view .decStatus).getLsbD 3 = false ∧
      (s.view .decStatus).getLsbD 4 = s.dec.filtValid ∧ (s.view .decStatus).getLsbD 5 = s.dec.filtAccept ∧
      (s.view .decStatus).extractLsb' 6 26 = 0#26) ∧
    ((s.view .decHdr).extractLsb' 0 8 = s.dec.toAddr ∧ (s.view .decHdr).extractLsb' 8 8 = s.dec.fromAddr ∧
      (s.view .decHdr).extractLsb' 16 8 = s.dec.id ∧ (s.view .decHdr).extractLsb' 24 8 = s.dec.flags) ∧
    ((s.view .rxqOut).extractLsb' 0 8 = s.rxqOut.fromAddr ∧ (s.view .rxqOut).extractLsb' 8 8 = s.rxqOut.len ∧
      (s.view .rxqOut).extractLsb' 16 15 = s.rxqOut.rssi ∧ (s.view .rxqOut).getLsbD 31 = s.rxqOut.valid) ∧
    ((s.view .lastRssi).extractLsb' 0 15 = s.tel.lastRssi ∧ (s.view .lastRssi).extractLsb' 15 16 = 0#16 ∧
      (s.view .lastRssi).getLsbD 31 = s.tel.lastRssiValid) ∧
    ((s.view (.peerW a)).extractLsb' 0 8 = (s.peerAt a).lastId ∧
      (s.view (.peerW a)).getLsbD 8 = (s.peerAt a).idValid ∧ (s.view (.peerW a)).extractLsb' 9 7 = 0#7 ∧
      (s.view (.peerW a)).extractLsb' 16 15 = (s.peerAt a).rssi ∧
      (s.view (.peerW a)).getLsbD 31 = (s.peerAt a).rssiValid) ∧
    ∀ j < 4, (s.view (.bufferWord b m)).extractLsb' (8 * j) 8 = Memory.read s.mem (b.start + (4 * m + j))) ∧
  ([PState.idle, .sending, .awaitingAck, .retrying, .acked, .failed].map PState.code = [0#3, 1#3, 2#3, 3#3, 4#3, 5#3] ∧
    [CmdResult.none, .ok, .illegalCmd, .notRunning, .busy, .tooLong, .empty].map CmdResult.code =
      [0x00#8, 0x01#8, 0x02#8, 0x03#8, 0x04#8, 0x05#8, 0x06#8] ∧
    [SrCode.none, .pending, .acked, .failed, .sent, .txError].map SrCode.code = [0#8, 1#8, 2#8, 3#8, 4#8, 5#8] ∧
    [DecCode.none, .ok, .invalidSync, .lengthMismatch, .crcMismatch].map DecCode.code = [0#3, 1#3, 2#3, 3#3, 4#3])

/-! ### The CRC unit -/

/-- CRC_INIT, in every run state (40_crc.md R152). -/
def Obligations.CrcInitCommand : Prop :=
  WordRuns 0x00000001#32 .crcInit ∧ OthersIllegal 0x01#8 0x00000001#32 0xFFFFFFFF#32 ∧
  ∀ s : State, exec .crcInit s = .next { s with crc := ⟨s.cfg.crcInitVal, false⟩, cmdResult := .ok }

/-- CRC_BYTE, in every run state: CRC_ACC takes the byte, CRC_MATCH keeps its value (40_crc.md R153). -/
def Obligations.CrcByteCommand : Prop :=
  (∀ b : Byte, WordRuns (0x0000#16 ++ b ++ 0x02#8) (.crcByte b)) ∧
  OthersIllegal 0x02#8 0x00000002#32 0xFFFF00FF#32 ∧
  ∀ (s : State) (b : Byte),
    exec (.crcByte b) s = .next { s with crc := ⟨crc16Update s.crc.acc b, s.crc.matched⟩, cmdResult := .ok }

/-- CRC_CHECK, in every run state: CRC_MATCH is 1 exactly when the final value is ARG[15:0], CRC_ACC keeps its
value, and a mismatch is no error (40_crc.md R154). -/
def Obligations.CrcCheckCommand : Prop :=
  WordRuns 0x00000003#32 .crcCheck ∧ OthersIllegal 0x03#8 0x00000003#32 0xFFFFFFFF#32 ∧
  ∀ s : State, ∃ matched : Bool,
    (matched = true ↔ s.crc.acc ^^^ s.cfg.crcXorOut = s.data.arg.extractLsb' 0 16) ∧
    exec .crcCheck s = .next { s with crc := ⟨s.crc.acc, matched⟩, cmdResult := .ok }

/-- The update of the CRC register by a byte: the byte is XORed into the low end, then eight shifts, each with 0xA001
XORed in when the bit shifted out was 1; and so it is a shift by a byte and the update of 0 by one byte, the form of
the computation by a table of 256 entries (40_crc.md R150). -/
def Obligations.CrcUpdateByTable : Prop :=
  ∀ (c : Half) (b : Byte),
    crc16Update c b =
      (fun r : Half => if r.getLsbD 0 then (r >>> 1) ^^^ 0xA001#16 else r >>> 1)^[8] (c ^^^ b.setWidth 16) ∧
    crc16Update c b = (c >>> 8) ^^^ crc16Update 0x0000#16 (c.extractLsb' 0 8 ^^^ b)

/-- CRC_BLOCK: the commands CRC_INIT and one CRC_BYTE for each byte of a message leave CRC_FINAL at `crc16` of the
message (30_encoding.md R117; 40_crc.md R151, R152, R153). -/
def Obligations.CrcBlockComputesCrc16 : Prop :=
  ∀ (s : State) (bytes : List Byte),
    (s.runEvents (crcBlock s.cfg bytes)).crcFinal = crc16 s.cfg bytes ∧
    (s.runEvents (crcBlock s.cfg bytes)).crc.matched = false

/-- The residue: with start value and final XOR 0, a message followed by its CRC, low byte first, has CRC 0
(40_crc.md R156). -/
def Obligations.CrcResidueIsZero : Prop :=
  ∀ (p : Params) (m : List Byte),
    p.crcInitVal = 0x0000#16 → p.crcXorOut = 0x0000#16 →
    crc16 p (m ++ [(crc16 p m).extractLsb' 0 8, (crc16 p m).extractLsb' 8 8]) = 0x0000#16

/-- The CRC commands run in every run state and touch CRC_ACC and CRC_MATCH only, with no call to the
transceiver; no other command, and neither ITERATE nor TICK, reads or writes the CRC unit (40_crc.md R155). -/
def Obligations.CrcUnitIsUndisturbed : Prop :=
  (∀ (i : Instr) (s : State), isCrcCommand i = true →
    ∃ c : CrcUnit, exec i s = .next { s with crc := c, cmdResult := .ok }) ∧
  (∀ (i : Instr) (s t : State) (c : CrcUnit), isCrcCommand i = false → exec i s = .next t →
    t.crc = s.crc ∧ exec i { s with crc := c } = .next { t with crc := c }) ∧
  (∀ (s : State) (c : CrcUnit),
    s.iterate.crc = s.crc ∧ ({ s with crc := c } : State).iterate = { s.iterate with crc := c } ∧
    s.tick.crc = s.crc ∧ ({ s with crc := c } : State).tick = { s.tick with crc := c })

/-! ### The frame codec -/

/-- `encode` fails exactly when the payload is longer than MAX_PAYLOAD; otherwise its image has the layout of
30_encoding.md R121, with the CRC over To to Payload (R122; 41_codec.md R170, R171). -/
def Obligations.WireImageLayout : Prop :=
  ∀ (p : Params) (sync : Half) (toAddr fromAddr id flags : Byte) (payload : List Byte),
    (encodeFrame p sync toAddr fromAddr id flags payload = .payloadTooLong ↔ p.maxPayload < payload.length) ∧
    ∀ image, encodeFrame p sync toAddr fromAddr id flags payload = .image image →
      image.length = p.preambleLen + 9 + payload.length ∧
      (∀ k < p.preambleLen, byteAt image k = p.preambleByte) ∧
      byteAt image p.preambleLen = sync.extractLsb' 8 8 ∧
      byteAt image (p.preambleLen + 1) = sync.extractLsb' 0 8 ∧
      byteAt image (p.preambleLen + 2) = toAddr ∧
      byteAt image (p.preambleLen + 3) = fromAddr ∧
      byteAt image (p.preambleLen + 4) = id ∧
      byteAt image (p.preambleLen + 5) = flags ∧
      byteAt image (p.preambleLen + 6) = BitVec.ofNat 8 payload.length ∧
      (∀ k < payload.length, byteAt image (p.preambleLen + 7 + k) = byteAt payload k) ∧
      byteAt image (p.preambleLen + 7 + payload.length) =
        (crc16 p ((image.drop (p.preambleLen + 2)).take (5 + payload.length))).extractLsb' 0 8 ∧
      byteAt image (p.preambleLen + 8 + payload.length) =
        (crc16 p ((image.drop (p.preambleLen + 2)).take (5 + payload.length))).extractLsb' 8 8

/-- The round trip: for every header and every payload of 0 to MAX_PAYLOAD bytes, decoding the encoded image gives
the same frame (41_codec.md R173). -/
def Obligations.DecodeOfEncodedFrame : Prop :=
  ∀ (p : Params) (sync : Half) (toAddr fromAddr id flags : Byte) (payload : List Byte),
    p.maxPayload ≤ 255 → payload.length ≤ p.maxPayload →
    ∃ image, encodeFrame p sync toAddr fromAddr id flags payload = .image image ∧
      decodeFrame p sync image =
        .frame ⟨toAddr, fromAddr, id, flags, BitVec.ofNat 8 payload.length, payload⟩

/-- The decoder accepts nothing but encoder images, up to the unchecked preamble: an image that decodes to a frame
is, from the sync word on, the encoding of that frame (41_codec.md R170, R174). -/
def Obligations.DecodedImagesAreEncodings : Prop :=
  ∀ (p : Params) (sync : Half) (bytes : List Byte) (f : Frame), decodeFrame p sync bytes = .frame f →
    ∃ image, encodeFrame p sync f.toAddr f.fromAddr f.id f.flags f.payload = .image image ∧
      bytes.length = image.length ∧ bytes.drop p.preambleLen = image.drop p.preambleLen

/-- One flipped bit of an encoded image: the preamble is not checked, the sync word gives InvalidSync, the Length
byte LengthMismatch, and every other byte CrcMismatch (41_codec.md R177). -/
def Obligations.SingleBitFlipOutcomes : Prop :=
  ∀ (p : Params) (sync : Half) (toAddr fromAddr id flags : Byte) (payload image : List Byte) (k j : Nat),
    p.maxPayload ≤ 255 → encodeFrame p sync toAddr fromAddr id flags payload = .image image →
    k < image.length → j < 8 →
    decodeFrame p sync (flipBit image k j) =
      if k < p.preambleLen then
        .frame ⟨toAddr, fromAddr, id, flags, BitVec.ofNat 8 payload.length, payload⟩
      else if k < p.preambleLen + 2 then .error .invalidSync
      else if k = p.preambleLen + 6 then .error .lengthMismatch
      else .error .crcMismatch

/-- The corner cases of `decode` on lengths (41_codec.md R178). -/
def Obligations.DecodeLengthCorners : Prop :=
  ∀ (p : Params) (sync : Half) (bytes : List Byte),
    (bytes.length < p.preambleLen + 2 → decodeFrame p sync bytes = .error .invalidSync) ∧
    (byteAt bytes p.preambleLen = sync.extractLsb' 8 8 → byteAt bytes (p.preambleLen + 1) = sync.extractLsb' 0 8 →
      (p.preambleLen + 2 ≤ bytes.length → bytes.length ≤ p.preambleLen + 6 →
        decodeFrame p sync bytes = .error .lengthMismatch) ∧
      (p.preambleLen + 7 ≤ bytes.length → p.maxPayload < (byteAt bytes (p.preambleLen + 6)).toNat →
        decodeFrame p sync bytes = .error .lengthMismatch)) ∧
    (∀ (toAddr fromAddr id flags b : Byte) (payload : List Byte), p.maxPayload ≤ 255 →
      encodeFrame p sync toAddr fromAddr id flags payload = .image bytes →
      decodeFrame p sync (bytes ++ [b]) = .error .lengthMismatch ∧
      decodeFrame p sync bytes.dropLast = .error .lengthMismatch)

/-- ENCODE, in every run state: TOO_LONG with no other change, or the image in WIRE_TX with 0x00 after it, its
length in WIRE_TX_LEN, and every other buffer byte and register unchanged (41_codec.md R172). -/
def Obligations.EncodeCommand : Prop :=
  WordRuns 0x00000020#32 .encode ∧ OthersIllegal 0x20#8 0x00000020#32 0xFFFFFFFF#32 ∧
  ∀ s : State, Memory.wf s.mem = true → s.cfg.preambleLen ≤ 248 →
    (s.cfg.maxPayload < s.data.txLen.toNat → exec .encode s = .next { s with cmdResult := .tooLong }) ∧
    (s.data.txLen.toNat ≤ s.cfg.maxPayload →
      ∃ image m,
        encodeFrame s.cfg s.conf.sync (s.data.hdr.extractLsb' 0 8) (s.data.hdr.extractLsb' 8 8)
          (s.data.hdr.extractLsb' 16 8) (s.data.hdr.extractLsb' 24 8)
          (Memory.readBytes s.mem Buffer.txBuf.start s.data.txLen.toNat) = .image image ∧
        exec .encode s =
          .next { s with mem := m, wireTxLen := BitVec.ofNat 10 image.length, cmdResult := .ok } ∧
        (BitVec.ofNat 10 image.length).toNat = image.length ∧
        (∀ k < 512, Memory.read m (Buffer.wireTx.start + k) = if k < image.length then byteAt image k else 0x00#8) ∧
        (∀ a, a < Buffer.wireTx.start ∨ Buffer.wireTx.start + 512 ≤ a → Memory.read m a = Memory.read s.mem a))

/-- DECODE, in every run state: TOO_LONG with no other change, or the outcome of `decode` in the DEC_* registers,
with FILT_VALID and FILT_ACCEPT cleared (41_codec.md R176). -/
def Obligations.DecodeCommand : Prop :=
  WordRuns 0x00000021#32 .decode ∧ OthersIllegal 0x21#8 0x00000021#32 0xFFFFFFFF#32 ∧
  ∀ s : State,
    (512 < s.data.rxLen.toNat → exec .decode s = .next { s with cmdResult := .tooLong }) ∧
    (s.data.rxLen.toNat ≤ 512 → ∀ r,
      decodeFrame s.cfg s.conf.sync (Memory.readBytes s.mem Buffer.wireRx.start s.data.rxLen.toNat) = r →
      exec .decode s =
        .next { s with
          cmdResult := .ok
          dec := match r with
            | .frame f => ⟨.ok, f.toAddr, f.fromAddr, f.id, f.flags, f.len, false, false⟩
            | .error .invalidSync => ⟨.invalidSync, 0#8, 0#8, 0#8, 0#8, 0#8, false, false⟩
            | .error .lengthMismatch => ⟨.lengthMismatch, 0#8, 0#8, 0#8, 0#8, 0#8, false, false⟩
            | .error .crcMismatch => ⟨.crcMismatch, 0#8, 0#8, 0#8, 0#8, 0#8, false, false⟩ })

/-! ### The address filter and configuration -/

/-- The filter predicate: promiscuous, or the local address, or broadcast (42_filter_config.md R200). -/
def Obligations.FilterAccepts : Prop :=
  ∀ (s : State) (toAddr : Byte),
    s.accepts toAddr = true ↔ s.conf.promisc = true ∨ toAddr = s.conf.self ∨ toAddr = 0xFF#8

/-- FILTER, in every run state: the verdict on the last decoded frame under SELF and PROMISC as they are now
(42_filter_config.md R201). -/
def Obligations.FilterCommand : Prop :=
  WordRuns 0x00000022#32 .filter ∧ OthersIllegal 0x22#8 0x00000022#32 0xFFFFFFFF#32 ∧
  ∀ s : State,
    (s.dec.code ≠ .ok →
      exec .filter s = .next { s with dec := { s.dec with filtValid := false, filtAccept := false }, cmdResult := .ok }) ∧
    (s.dec.code = .ok →
      exec .filter s =
        .next { s with
          dec := { s.dec with filtValid := true, filtAccept := s.accepts s.dec.toAddr }, cmdResult := .ok })

/-- SET_ADDR: NOT_RUNNING with no other change when FATAL or STOPPED is set; otherwise SELF and PROMISC are written
and passed to the transceiver, pending send or not (42_filter_config.md R203). -/
def Obligations.SetAddrCommand : Prop :=
  (∀ (self : Byte) (promiscuous : Bool),
    WordRuns (0x00#8 ++ 0#7 ++ BitVec.ofBool promiscuous ++ self ++ 0x10#8) (.setAddr self promiscuous)) ∧
  OthersIllegal 0x10#8 0x00000010#32 0xFFFE00FF#32 ∧
  ∀ (s : State) (self : Byte) (promiscuous : Bool),
    (s.run.fatal = true ∨ s.run.stopped = true →
      exec (.setAddr self promiscuous) s = .next { s with cmdResult := .notRunning }) ∧
    (s.run.fatal = false → s.run.stopped = false →
      exec (.setAddr self promiscuous) s =
        .next { s with
          conf := ⟨self, promiscuous, s.conf.sync⟩
          trace := s.trace ++ [.setAddress self promiscuous]
          cmdResult := .ok })

/-- SET_SYNC, in every run state: SYNC takes ARG[15:0] and nothing else changes, the pending image included
(42_filter_config.md R205). -/
def Obligations.SetSyncCommand : Prop :=
  WordRuns 0x00000011#32 .setSync ∧ OthersIllegal 0x11#8 0x00000011#32 0xFFFFFFFF#32 ∧
  ∀ s : State,
    exec .setSync s =
      .next { s with
        conf := ⟨s.conf.self, s.conf.promisc, s.data.arg.extractLsb' 0 16⟩, cmdResult := .ok }

/-- SELF and PROMISC are written by SET_ADDR and RESET only, SYNC by SET_SYNC and RESET only (10_state.md R33). -/
def Obligations.ConfigurationWriters : Prop :=
  ∀ (e : Event) (s t : State), s.handle e = .next t →
    (e = .reset → t.conf = ⟨s.cfg.selfReset, false, s.cfg.syncReset⟩) ∧
    (e ≠ .reset →
      (t.conf.self ≠ s.conf.self ∨ t.conf.promisc ≠ s.conf.promisc →
        ∃ addr v self promiscuous, e = .hostWrite addr 4 v ∧ decode v = .command (.setAddr self promiscuous)) ∧
      (t.conf.sync ≠ s.conf.sync → ∃ addr v, e = .hostWrite addr 4 v ∧ decode v = .command .setSync))

/-! ### Control -/

/-- NOP, in every run state, reports success and changes nothing else (45_control_telemetry.md R300). -/
def Obligations.NopCommand : Prop :=
  WordRuns 0x00000000#32 .nop ∧ OthersIllegal 0x00#8 0x00000000#32 0xFFFFFFFF#32 ∧
  ∀ s : State, exec .nop s = .next { s with cmdResult := .ok }

/-- STOP raises STOP_REQ in every run state and changes nothing else but CMD_RESULT (45_control_telemetry.md
R301). -/
def Obligations.StopCommand : Prop :=
  WordRuns 0x00000038#32 .stop ∧ OthersIllegal 0x38#8 0x00000038#32 0xFFFFFFFF#32 ∧
  ∀ s : State, exec .stop s = .next { s with run := ⟨s.run.fatal, true, s.run.stopped⟩, cmdResult := .ok }

/-- FATAL, STOP_REQ and STOPPED are cleared only by RESET; FATAL is set only by RESET, STOP_REQ only by STOP and
STOPPED only by an ITERATE that finds the stop flag set and no send pending (10_state.md R34; 44_receive.md R260,
R261). -/
def Obligations.RunBitsWriters : Prop :=
  ∀ (e : Event) (s t : State), s.handle e = .next t → e ≠ .reset →
    t.run.fatal = s.run.fatal ∧
    (s.run.stopReq = true → t.run.stopReq = true) ∧ (s.run.stopped = true → t.run.stopped = true) ∧
    (s.run.stopReq = false → t.run.stopReq = true →
      ∃ addr v, e = .hostWrite addr 4 v ∧ decode v = .command .stop) ∧
    (s.run.stopped = false → t.run.stopped = true →
      e = .iterate ∧ s.run.stopReq = true ∧ s.pend.state ≠ .awaitingAck)

/-! ### The retransmission engine -/

/-- Both send commands are refused in the order NOT_RUNNING, BUSY, TOO_LONG, and a refused one changes nothing but
CMD_RESULT: no id is allocated (43_send.md R221, R224; 60_exceptions.md R325). -/
def Obligations.SendRefusedInOrder : Prop :=
  ∀ (s : State) (i : Instr), isSendCommand i = true →
    (s.running = false → exec i s = .next { s with cmdResult := .notRunning }) ∧
    (s.running = true → s.pend.state = .awaitingAck → exec i s = .next { s with cmdResult := .busy }) ∧
    (s.running = true → s.pend.state ≠ .awaitingAck → s.cfg.maxPayload < s.data.txLen.toNat →
      exec i s = .next { s with cmdResult := .tooLong })

/-- An accepted SEND_RELIABLE to a unicast destination with at least one transmission allowed: the id is allocated,
the first attempt is sent, and the send awaits its ACK for ARG[T_W-1:0] ticks (43_send.md R221, R222). -/
def Obligations.SendReliableUnicast : Prop :=
  (∀ dest maxRetries : Byte, WordRuns (0x00#8 ++ maxRetries ++ dest ++ 0x30#8) (.sendReliable dest maxRetries)) ∧
  OthersIllegal 0x30#8 0x00000030#32 0xFF0000FF#32 ∧
  ∀ (s : State) (dest maxRetries : Byte),
    s.running = true → s.pend.state ≠ .awaitingAck → s.data.txLen.toNat ≤ s.cfg.maxPayload →
    dest ≠ 0xFF#8 → maxRetries ≠ 0#8 →
    ∃ image ticks,
      encodeFrame s.cfg s.conf.sync dest s.conf.self s.txSeq 0x00#8
        (Memory.readBytes s.mem Buffer.txBuf.start s.data.txLen.toNat) = .image image ∧
      ticks = BitVec.ofNat 32 (s.data.arg.toNat % 2 ^ s.cfg.tW) ∧
      exec (.sendReliable dest maxRetries) s =
        .next { s with
          txSeq := s.txSeq + 1
          pend := ⟨.awaitingAck, dest, s.txSeq, 1#8, maxRetries, ticks, ticks, image⟩
          sendResult := ⟨.pending, s.txSeq, 1#8⟩
          cmdResult := .ok
          trace := s.trace ++ [.transmitRaw image, .setMode .receive]
          trx := { s.trx with
            transmits := s.trx.transmits.tail
            answered := s.trx.answered ++ [.transmitRaw s.transmitAnswer] } }

/-- An accepted SEND_RELIABLE with `maxRetries = 0` to a unicast destination fails at once: no transmission, and the
id is consumed (43_send.md R221). -/
def Obligations.SendReliableZeroRetries : Prop :=
  ∀ (s : State) (dest : Byte),
    s.running = true → s.pend.state ≠ .awaitingAck → s.data.txLen.toNat ≤ s.cfg.maxPayload → dest ≠ 0xFF#8 →
    ∃ image,
      encodeFrame s.cfg s.conf.sync dest s.conf.self s.txSeq 0x00#8
        (Memory.readBytes s.mem Buffer.txBuf.start s.data.txLen.toNat) = .image image ∧
      exec (.sendReliable dest 0#8) s =
        .next { s with
          txSeq := s.txSeq + 1
          pend := ⟨.failed, dest, s.txSeq, 0#8, 0#8, BitVec.ofNat 32 (s.data.arg.toNat % 2 ^ s.cfg.tW), 0#32, image⟩
          sendResult := ⟨.failed, s.txSeq, 0#8⟩
          tel := { s.tel with failed := s.tel.failed + 1 }
          cmdResult := .ok }

/-- An accepted SEND_RELIABLE to broadcast transmits once, reports SENT or TX_ERROR, and leaves PSTATE and every P_*
field unchanged (43_send.md R223). -/
def Obligations.SendReliableBroadcast : Prop :=
  ∀ (s : State) (maxRetries : Byte),
    s.running = true → s.pend.state ≠ .awaitingAck → s.data.txLen.toNat ≤ s.cfg.maxPayload →
    ∃ image,
      encodeFrame s.cfg s.conf.sync 0xFF#8 s.conf.self s.txSeq 0x00#8
        (Memory.readBytes s.mem Buffer.txBuf.start s.data.txLen.toNat) = .image image ∧
      exec (.sendReliable 0xFF#8 maxRetries) s =
        .next { s with
          txSeq := s.txSeq + 1
          sendResult := ⟨if s.transmitAnswer = true then .sent else .txError, s.txSeq, 1#8⟩
          cmdResult := .ok
          trace := s.trace ++ [.transmitRaw image, .setMode .receive]
          trx := { s.trx with
            transmits := s.trx.transmits.tail
            answered := s.trx.answered ++ [.transmitRaw s.transmitAnswer] } }

/-- An accepted SEND_UNRELIABLE transmits one frame with flags 0x02, reports SENT or TX_ERROR, and leaves the Pending
Send unchanged (43_send.md R224). -/
def Obligations.SendUnreliableCommand : Prop :=
  (∀ dest : Byte, WordRuns (0x0000#16 ++ dest ++ 0x31#8) (.sendUnreliable dest)) ∧
  OthersIllegal 0x31#8 0x00000031#32 0xFFFF00FF#32 ∧
  ∀ (s : State) (dest : Byte),
    s.running = true → s.pend.state ≠ .awaitingAck → s.data.txLen.toNat ≤ s.cfg.maxPayload →
    ∃ image,
      encodeFrame s.cfg s.conf.sync dest s.conf.self s.txSeq 0x02#8
        (Memory.readBytes s.mem Buffer.txBuf.start s.data.txLen.toNat) = .image image ∧
      exec (.sendUnreliable dest) s =
        .next { s with
          txSeq := s.txSeq + 1
          sendResult := ⟨if s.transmitAnswer = true then .sent else .txError, s.txSeq, 1#8⟩
          cmdResult := .ok
          trace := s.trace ++ [.transmitRaw image, .setMode .receive]
          trx := { s.trx with
            transmits := s.trx.transmits.tail
            answered := s.trx.answered ++ [.transmitRaw s.transmitAnswer] } }

/-- TX_SEQ advances by one, mod 256, for each accepted send command and for nothing else: not for a refused one, not
for any other command, not in TICK, and not for a retransmission or an ACK in ITERATE (43_send.md R220). -/
def Obligations.SequenceNumberAllocation : Prop :=
  (∀ (i : Instr) (s t : State), exec i s = .next t →
    t.txSeq = if isSendCommand i = true ∧ s.sendRefusal = none then s.txSeq + 1 else s.txSeq) ∧
  (∀ s : State, s.tick.txSeq = s.txSeq ∧ s.iterate.txSeq = s.txSeq)

/-- While a send is pending, no host access changes it and both send commands give BUSY: nothing but TICK, ITERATE
and RESET touches the Pending Send (43_send.md R232, R233). -/
def Obligations.PendingSendIsNotCancelled : Prop :=
  ∀ (e : Event) (s t : State), s.pend.state = .awaitingAck → s.handle e = .next t →
    e ≠ .tick → e ≠ .iterate → e ≠ .reset →
    t.pend = s.pend ∧
    ∀ addr v i, e = .hostWrite addr 4 v → locate s.cfg addr 4 = .reg .cmd → decode v = .command i →
      isSendCommand i = true → s.running = true →
      t = { s with cmdResult := .busy, busReply := .written }

/-- TICK counts P_REMAIN down while a send is pending, saturating at 0, and changes nothing else; in any other state
it has no effect (43_send.md R225). -/
def Obligations.TickCountsDown : Prop :=
  ∀ s : State,
    (s.pend.state = .awaitingAck →
      s.handle .tick = .next { s with pend := { s.pend with
        remain := if s.pend.remain = 0#32 then 0#32 else s.pend.remain - 1#32 } }) ∧
    (s.pend.state ≠ .awaitingAck → s.handle .tick = .next s)

/-- The ITERATE event of a running block. One that hears nothing: with no send pending it only asks for a frame; with
one pending, the timer at 0 and attempts left, it resends the same image and reloads the timer; with none left the send
fails; before the timer is at 0 it only asks. One that hears an image is the poll and then the same timeout check on the
state the poll leaves, so a send that the poll resolved is not touched again (44_receive.md R260; 43_send.md R226,
R227). -/
def Obligations.TimeoutRetransmitsOrFails : Prop :=
  (∀ s : State, s.hearsNothing → s.pend.state = .awaitingAck →
    (s.pend.remain = 0#32 → s.pend.attempts < s.pend.max →
      s.handle .iterate = .next
        { s with
          pend := { s.pend with attempts := s.pend.attempts + 1, remain := s.pend.timeout }
          sendResult := { s.sendResult with attempts := s.pend.attempts + 1 }
          tel := { s.tel with retried := s.tel.retried + 1 }
          trace := s.trace ++ [.frameReady, .transmitRaw s.pend.image, .setMode .receive]
          trx := { s.trx with
            readies := s.trx.readies.tail
            transmits := s.trx.transmits.tail
            answered := s.trx.answered ++ [.frameReady false, .transmitRaw s.callFrameReady.transmitAnswer] } }) ∧
    (s.pend.remain = 0#32 → ¬ s.pend.attempts < s.pend.max →
      s.handle .iterate = .next
        { s with
          pend := { s.pend with state := .failed }
          sendResult := { s.sendResult with code := .failed }
          tel := { s.tel with failed := s.tel.failed + 1 }
          trace := s.trace ++ [.frameReady]
          trx := { s.trx with
            readies := s.trx.readies.tail, answered := s.trx.answered ++ [.frameReady false] } }) ∧
    (s.pend.remain ≠ 0#32 →
      s.handle .iterate = .next
        { s with
          trace := s.trace ++ [.frameReady]
          trx := { s.trx with
            readies := s.trx.readies.tail, answered := s.trx.answered ++ [.frameReady false] } })) ∧
  (∀ s : State, s.hearsNothing → s.pend.state ≠ .awaitingAck →
    s.handle .iterate = .next
      { s with
        trace := s.trace ++ [.frameReady]
        trx := { s.trx with
          readies := s.trx.readies.tail, answered := s.trx.answered ++ [.frameReady false] } }) ∧
  (∀ (s p : State) (r : FrameResult) (rssi : Rssi), s.hears r rssi → s.poll = p →
    (p.pend.state = .awaitingAck → p.pend.remain = 0#32 → p.pend.attempts < p.pend.max →
      s.handle .iterate = .next
        { p with
          pend := { p.pend with attempts := p.pend.attempts + 1, remain := p.pend.timeout }
          sendResult := { p.sendResult with attempts := p.pend.attempts + 1 }
          tel := { p.tel with retried := p.tel.retried + 1 }
          trace := p.trace ++ [.transmitRaw p.pend.image, .setMode .receive]
          trx := { p.trx with
            transmits := p.trx.transmits.tail
            answered := p.trx.answered ++ [.transmitRaw p.transmitAnswer] } }) ∧
    (p.pend.state = .awaitingAck → p.pend.remain = 0#32 → ¬ p.pend.attempts < p.pend.max →
      s.handle .iterate = .next
        { p with
          pend := { p.pend with state := .failed }
          sendResult := { p.sendResult with code := .failed }
          tel := { p.tel with failed := p.tel.failed + 1 } }) ∧
    (p.pend.state ≠ .awaitingAck ∨ p.pend.remain ≠ 0#32 → s.handle .iterate = .next p))

/-- The transitions of PSTATE: it changes only by RESET, by an accepted SEND_RELIABLE to a unicast destination, by an
ITERATE that hears an accepted ACK frame with the pending send's key, or by one that hears none and finds the timer at 0
and no attempt left; and P_ATTEMPTS never exceeds P_MAX (43_send.md R228, R231). -/
def Obligations.PstateTransitions : Prop :=
  ∀ (e : Event) (s t : State), Inv s → s.handle e = .next t →
    t.pend.attempts ≤ t.pend.max ∧
    (t.pend.state = s.pend.state ∨
      (e = .reset ∧ t.pend.state = .idle) ∨
      (∃ addr v dest maxRetries, e = .hostWrite addr 4 v ∧ decode v = .command (.sendReliable dest maxRetries) ∧
        (s.pend.state = .idle ∨ s.pend.state = .acked ∨ s.pend.state = .failed) ∧ dest ≠ 0xFF#8 ∧
        ((maxRetries ≠ 0#8 ∧ t.pend.state = .awaitingAck ∧ t.pend.attempts = 1#8 ∧
            t.pend.remain = t.pend.timeout) ∨
          (maxRetries = 0#8 ∧ t.pend.state = .failed ∧ t.tel.failed = s.tel.failed + 1))) ∨
      (e = .iterate ∧ s.pend.state = .awaitingAck ∧
        ((s.hearsItsAck ∧ t.pend.state = .acked ∧ t.sendResult = ⟨.acked, s.pend.id, s.pend.attempts⟩) ∨
          (¬ s.hearsItsAck ∧ t.pend.state = .failed ∧ s.pend.remain = 0#32 ∧ s.pend.attempts = s.pend.max ∧
            t.sendResult.code = .failed ∧ t.tel.failed = s.tel.failed + 1))))

/-- Retry exhaustion. In the tightest schedule, with no frame heard, an accepted SEND_RELIABLE makes exactly `maxRetries`
transmissions of one image and fails after exactly `maxRetries * ackTimeout` TICKs, each attempt acted on at the next
ITERATE; before that it is still pending. In every order of events, whatever is heard meanwhile, one that is pending up
to the last event and then has failed made exactly `maxRetries` transmissions of its image, and exactly
`maxRetries * ackTimeout` TICKs decremented P_REMAIN. The failure comes no earlier than `maxRetries * ackTimeout` periods
of TICK_PERIOD after the command, where a period's length in nanoseconds is the model's unit (log 14; 43_send.md
R229). -/
def Obligations.RetryExhaustion : Prop :=
  ∀ (s t : State) (dest maxRetries : Byte),
    s.sendRefusal = none → dest ≠ 0xFF#8 → maxRetries ≠ 0#8 →
    exec (.sendReliable dest maxRetries) s = .next t →
    let ackTimeout := s.data.arg.toNat % 2 ^ s.cfg.tW
    (∀ rest : List Bool, s.trx.readies = List.replicate maxRetries.toNat false ++ rest →
      let schedule := failSchedule maxRetries.toNat ackTimeout
      let u := t.runEvents schedule
      (∀ n < schedule.length, (t.runEvents (schedule.take n)).pend.state = .awaitingAck) ∧
      u.pend.state = .failed ∧ u.sendResult = ⟨.failed, s.txSeq, maxRetries⟩ ∧
      u.transmitted = s.transmitted ++ List.replicate maxRetries.toNat t.pend.image ∧
      u.tel.failed = s.tel.failed + 1 ∧ u.tel.retried = s.tel.retried + (BitVec.ofNat 32 (maxRetries.toNat - 1)) ∧
      (schedule.filter fun e => e == .tick).length * s.cfg.tickPeriod = t.failureDelay) ∧
    (∀ es : List Event, (∀ n < es.length, (t.runEvents (es.take n)).pend.state = .awaitingAck) →
      (t.runEvents es).pend.state = .failed →
      (t.runEvents es).sendResult = ⟨.failed, s.txSeq, maxRetries⟩ ∧
      (t.runEvents es).transmitted.count t.pend.image = s.transmitted.count t.pend.image + maxRetries.toNat ∧
      t.decrements es = maxRetries.toNat * ackTimeout ∧
      t.failureDelay ≤ (es.filter fun e => e == .tick).length * s.cfg.tickPeriod)

/-- In a fair environment every pending send is resolved, whatever the transceiver answers and whatever the host
does: after finitely many events it has been acknowledged, has failed, or was discarded by a RESET. Of R355's
assumption the clause that TICK occurs once every TICK_PERIOD is left out (log 13; 70_reset_and_hazards.md R355;
43_send.md R233). -/
def Obligations.FairEnvironmentResolvesSend : Prop :=
  ∀ (s : State) (es : Nat → Event), Inv s → FairEvents es →
    ∃ n, (State.afterEvents es n s).pend.state ≠ .awaitingAck

/-! ### The receive engine and the polling loop -/

/-- ITERATE has no effect while FATAL or STOPPED is set; with the stop flag set and no send pending it leaves the loop:
it calls setMode(Idle), sets STOPPED, and does nothing else (44_receive.md R260, R261). -/
def Obligations.LoopExit : Prop :=
  ∀ s : State,
    (s.run.fatal = true ∨ s.run.stopped = true → s.handle .iterate = .next s) ∧
    (s.run.fatal = false → s.run.stopped = false → s.run.stopReq = true → s.pend.state ≠ .awaitingAck →
      s.handle .iterate = .next
        { s with run := ⟨false, true, true⟩, trace := s.trace ++ [.setMode .idle] })

/-- An image that does not decode raises its own counter by one and changes nothing else but the trace and the answers;
a frame the filter rejects changes nothing but those. Both end by restoring receive mode (44_receive.md R263). -/
def Obligations.DroppedImages : Prop :=
  ∀ (s : State) (rssi : Rssi),
    (s.hears (.error .invalidSync) rssi →
      s.poll = { s.tookImage with
        tel := { s.tel with dropSync := s.tel.dropSync + 1 }
        trace := s.trace ++ [.frameReady, .receiveRaw, .setMode .receive] }) ∧
    (s.hears (.error .lengthMismatch) rssi →
      s.poll = { s.tookImage with
        tel := { s.tel with dropLen := s.tel.dropLen + 1 }
        trace := s.trace ++ [.frameReady, .receiveRaw, .setMode .receive] }) ∧
    (s.hears (.error .crcMismatch) rssi →
      s.poll = { s.tookImage with
        tel := { s.tel with dropCrc := s.tel.dropCrc + 1 }
        trace := s.trace ++ [.frameReady, .receiveRaw, .setMode .receive] }) ∧
    (∀ f, s.hears (.frame f) rssi → s.accepts f.toAddr = false →
      s.poll = { s.tookImage with trace := s.trace ++ [.frameReady, .receiveRaw, .setMode .receive] })

/-- An accepted data frame: the reading is noted; a fresh frame is queued and counted, or dropped and counted when RXQ is
full, and becomes its sender's last accepted id; a duplicate is neither queued nor counted; either is acknowledged
exactly when it is eligible; every other PEER entry and every other register is unchanged (44_receive.md R264 to R267,
R269, R271). -/
def Obligations.DataFrameProcessing : Prop :=
  ∀ (s : State) (f : Frame) (rssi : Rssi), s.hears (.frame f) rssi → s.accepts f.toAddr = true →
    f.flags.getLsbD 0 = false →
    let dup := (s.peerAt f.fromAddr).idValid = true ∧ (s.peerAt f.fromAddr).lastId = f.id
    let eligible := f.toAddr ≠ 0xFF#8 ∧ f.flags.getLsbD 1 = false
    s.poll = { s with
        peer := s.poll.peer, rxq := s.poll.rxq, tel := s.poll.tel, trace := s.poll.trace, trx := s.poll.trx } ∧
    (∀ a, s.poll.peerAt a = if a = f.fromAddr then ⟨true, f.id, true, rssi⟩ else s.peerAt a) ∧
    (¬ dup → s.rxq.length < s.cfg.rxqDepth →
      s.poll.rxq = s.rxq ++ [⟨f.fromAddr, f.len, f.payload, rssi⟩] ∧
      s.poll.tel = { s.tel with delivered := s.tel.delivered + 1, lastRssi := rssi, lastRssiValid := true }) ∧
    (¬ dup → s.cfg.rxqDepth ≤ s.rxq.length →
      s.poll.rxq = s.rxq ∧
      s.poll.tel = { s.tel with qdrop := s.tel.qdrop + 1, lastRssi := rssi, lastRssiValid := true }) ∧
    (dup → s.poll.rxq = s.rxq ∧ s.poll.tel = { s.tel with lastRssi := rssi, lastRssiValid := true }) ∧
    (eligible → ∃ ack, encodeFrame s.cfg s.conf.sync f.fromAddr s.conf.self f.id 0x01#8 [] = .image ack ∧
      s.poll.trace = s.trace ++ [.frameReady, .receiveRaw, .transmitRaw ack, .setMode .receive]) ∧
    (¬ eligible → s.poll.trace = s.trace ++ [.frameReady, .receiveRaw, .setMode .receive])

/-- An accepted ACK frame: it resolves the pending send when its `from` and `id` are the key, whatever its `to` and
payload, and is discarded otherwise; it is never acknowledged, queued or counted, and never changes an entry's id; only
the reading is noted (44_receive.md R264, R265, R268). -/
def Obligations.AckFrameProcessing : Prop :=
  ∀ (s : State) (f : Frame) (rssi : Rssi), s.hears (.frame f) rssi → s.accepts f.toAddr = true →
    f.flags.getLsbD 0 = true →
    let noted : State :=
      { s.tookImage with
        peer := s.poll.peer
        tel := { s.tel with lastRssi := rssi, lastRssiValid := true }
        trace := s.trace ++ [.frameReady, .receiveRaw, .setMode .receive] }
    (∀ a, s.poll.peerAt a =
      if a = f.fromAddr then { s.peerAt a with rssiValid := true, rssi := rssi } else s.peerAt a) ∧
    (s.pend.state = .awaitingAck → s.pend.dest = f.fromAddr → s.pend.id = f.id →
      s.handle .iterate = .next
        { noted with
          pend := { s.pend with state := .acked }
          sendResult := ⟨.acked, s.pend.id, s.pend.attempts⟩ }) ∧
    (¬ (s.pend.state = .awaitingAck ∧ s.pend.dest = f.fromAddr ∧ s.pend.id = f.id) → s.poll = noted)

/-- The duplicate property: a fresh, eligible data frame heard twice in a row by a block with room in RXQ and no send
pending is delivered once and acknowledged twice, with the same image (44_receive.md R265, R266, R267, R269, R272). -/
def Obligations.DuplicateDeliveredOnceAckedTwice : Prop :=
  ∀ (s : State) (f : Frame) (r1 r2 : Rssi),
    s.hears (.frame f) r1 → s.iterate.hears (.frame f) r2 → s.accepts f.toAddr = true →
    f.flags.getLsbD 0 = false → f.flags.getLsbD 1 = false → f.toAddr ≠ 0xFF#8 →
    s.rxq.length < s.cfg.rxqDepth → s.pend.state ≠ .awaitingAck →
    ¬ ((s.peerAt f.fromAddr).idValid = true ∧ (s.peerAt f.fromAddr).lastId = f.id) →
    ∃ ack, encodeFrame s.cfg s.conf.sync f.fromAddr s.conf.self f.id 0x01#8 [] = .image ack ∧
      s.iterate.iterate.tel.delivered = s.tel.delivered + 1 ∧
      s.iterate.iterate.rxq = s.rxq ++ [⟨f.fromAddr, f.len, f.payload, r1⟩] ∧
      s.iterate.iterate.transmitted = s.transmitted ++ [ack, ack]

/-- No frame to 0xFF ever leads to an ACK, whatever its flags, PROMISC, SELF and PEER: the poll that hears it transmits
nothing (44_receive.md R273). -/
def Obligations.BroadcastIsNeverAcked : Prop :=
  ∀ (s : State) (f : Frame) (rssi : Rssi), s.hears (.frame f) rssi → f.toAddr = 0xFF#8 →
    s.poll.transmitted = s.transmitted ∧
    s.poll.trace = s.trace ++ [.frameReady, .receiveRaw, .setMode .receive]

/-- The outbound calls of one ITERATE: none, or setMode(Idle), or a poll that asks, and may take an image, acknowledge it
and restore receive mode, and then at most one retransmission of the pending image (44_receive.md R275;
70_reset_and_hazards.md R371). -/
def Obligations.CallsOfOneIterate : Prop :=
  ∀ s : State, ∃ calls, s.iterate.trace = s.trace ++ calls ∧ calls.length ≤ 6 ∧
    (calls = [] ∨ calls = [.setMode .idle] ∨
      ∃ received resent, calls = received ++ resent ∧
        (received = [.frameReady] ∨ received = [.frameReady, .receiveRaw, .setMode .receive] ∨
          ∃ a i ack, encodeFrame s.cfg s.conf.sync a s.conf.self i 0x01#8 [] = .image ack ∧
            received = [.frameReady, .receiveRaw, .transmitRaw ack, .setMode .receive]) ∧
        (resent = [] ∨ resent = [.transmitRaw s.pend.image, .setMode .receive]))

/-- RXQ_POP, in every run state: EMPTY clears VALID and changes nothing else; otherwise the oldest record moves to RXQ_OUT
and RXQ_DATA, with 0x00 after the payload, and every other buffer byte is unchanged (44_receive.md R270). -/
def Obligations.RxqPopCommand : Prop :=
  WordRuns 0x00000040#32 .rxqPop ∧ OthersIllegal 0x40#8 0x00000040#32 0xFFFFFFFF#32 ∧
  ∀ s : State, Memory.wf s.mem = true →
    (s.rxq = [] →
      exec .rxqPop s = .next { s with rxqOut := { s.rxqOut with valid := false }, cmdResult := .empty }) ∧
    (∀ rec rest, s.rxq = rec :: rest →
      ∃ m, exec .rxqPop s = .next { s with
          rxq := rest, rxqOut := ⟨rec.fromAddr, rec.len, rec.rssi, true⟩, mem := m, cmdResult := .ok } ∧
        (∀ k < 256, Memory.read m (Buffer.rxqData.start + k) =
          if k < rec.payload.length then byteAt rec.payload k else 0x00#8) ∧
        (∀ a, a < Buffer.rxqData.start ∨ Buffer.rxqData.start + 256 ≤ a → Memory.read m a = Memory.read s.mem a))

/-! ### Whole-machine rules -/

/-- The buffers' frame: ENCODE stores to WIRE_TX only, RXQ_POP to RXQ_DATA only, and no other command, no TICK and no
ITERATE stores to any buffer (41_codec.md R172; 44_receive.md R270; 10_state.md R43). -/
def Obligations.BufferFrame : Prop :=
  (∀ (i : Instr) (s t : State) (a : Nat), Memory.wf s.mem = true → exec i s = .next t →
    (i = .encode → a < Buffer.wireTx.start ∨ Buffer.wireTx.start + Buffer.wireTx.size ≤ a →
      Memory.read t.mem a = Memory.read s.mem a) ∧
    (i = .rxqPop → a < Buffer.rxqData.start ∨ Buffer.rxqData.start + Buffer.rxqData.size ≤ a →
      Memory.read t.mem a = Memory.read s.mem a) ∧
    (i ≠ .encode → i ≠ .rxqPop → Memory.read t.mem a = Memory.read s.mem a)) ∧
  (∀ (s : State) (a : Nat),
    Memory.read s.tick.mem a = Memory.read s.mem a ∧ Memory.read s.iterate.mem a = Memory.read s.mem a)

/-- Telemetry gates nothing: of two states that differ in the telemetry registers only, the per-peer readings among them,
an event other than a host read makes two that differ in those only. No command writes PEER, none but a send writes a
telemetry register, and a send at most counts a failure; no write to a register changes a telemetry register
(45_control_telemetry.md R303, R306; 10_state.md R45). -/
def Obligations.TelemetryGatesNothing : Prop :=
  (∀ (e : Event) (s s' t : State), (∀ addr size, e ≠ .hostRead addr size) →
    s'.withoutTelemetry = s.withoutTelemetry → s.handle e = .next t →
    ∃ t', s'.handle e = .next t' ∧ t'.withoutTelemetry = t.withoutTelemetry) ∧
  (∀ (i : Instr) (s t : State), exec i s = .next t →
    t.peer = s.peer ∧ (isSendCommand i = false → t.tel = s.tel) ∧
    (t.tel = s.tel ∨ t.tel = { s.tel with failed := s.tel.failed + 1 })) ∧
  (∀ (r : Reg) (v : Word) (s : State), (s.storeReg r v).tel = s.tel ∧ (s.storeReg r v).peer = s.peer)

/-- A failed initialisation: ITERATE has no effect, the three transceiver commands give NOT_RUNNING and nothing else,
every other command does what it does with FATAL clear, and no event but RESET clears FATAL or calls the transceiver
(70_reset_and_hazards.md R351; 45_control_telemetry.md R302). -/
def Obligations.FatalBlock : Prop :=
  ∀ s : State, s.run.fatal = true →
    s.iterate = s ∧
    (∀ e t, e ≠ .reset → s.handle e = .next t → t.run.fatal = true ∧ t.trace = s.trace) ∧
    (∀ i, isSendCommand i = true ∨ (∃ self promiscuous, i = .setAddr self promiscuous) →
      exec i s = .next { s with cmdResult := .notRunning }) ∧
    (∀ i t, isSendCommand i = false → (∀ self promiscuous, i ≠ .setAddr self promiscuous) → exec i s = .next t →
      exec i { s with run := { s.run with fatal := false } } =
        .next { t with run := { t.run with fatal := false } })

/-- RESET: every piece of state takes its reset value and `init` is called; when it succeeds the transceiver is told the
address and receive mode, and when it fails FATAL is set and no further call is made (70_reset_and_hazards.md R350,
R351; 10_state.md R48). What stays are the parameters and what is no state of R48: the trace and the answers, which
go on with the calls made, the events to come and the bus reply (log 10). -/
def Obligations.ResetEvent : Prop :=
  ∀ s : State, ∃ t, s.handle .reset = .next t ∧
    t.cfg = s.cfg ∧ t.conf = ⟨s.cfg.selfReset, false, s.cfg.syncReset⟩ ∧
    t.run = ⟨!s.initAnswer, false, false⟩ ∧ t.txSeq = 0#8 ∧
    t.pend = ⟨.idle, 0#8, 0#8, 0#8, 0#8, 0#32, 0#32, []⟩ ∧ (∀ a, t.peerAt a = ⟨false, 0#8, false, 0#15⟩) ∧
    t.rxq = [] ∧ t.rxqOut = ⟨0#8, 0#8, 0#15, false⟩ ∧ t.data = ⟨0#32, 0#8, 0#32, 0#10⟩ ∧
    t.crc = ⟨s.cfg.crcInitVal, false⟩ ∧ t.wireTxLen = 0#10 ∧
    t.dec = ⟨.none, 0#8, 0#8, 0#8, 0#8, 0#8, false, false⟩ ∧ t.cmdResult = .none ∧
    t.sendResult = ⟨.none, 0#8, 0#8⟩ ∧ t.tel = ⟨0#32, 0#32, 0#32, 0#32, 0#32, 0#32, 0#32, 0#15, false⟩ ∧
    (∀ a, Memory.read t.mem a = 0x00#8) ∧
    t.trace = s.trace ++ (if s.initAnswer = true then
      [.init, .setAddress s.cfg.selfReset false, .setMode .receive] else [.init]) ∧
    t.trx = { s.trx with inits := s.trx.inits.tail, answered := s.trx.answered ++ [.init s.initAnswer] } ∧
    t.events = s.events ∧ t.busReply = s.busReply

/-- What the host reads after a successful reset of a block with parameters in their ranges: every mapped register reads 0
but CONFIG, CRCACC and CRCFINAL (10_state.md R48; 70_reset_and_hazards.md R352). -/
def Obligations.RegistersAfterReset : Prop :=
  ∀ (p : Params) (off : Nat) (r : Reg), p.wellFormed → regAt off = some r →
    (State.afterReset p).view r =
      match r with
      | .config => p.syncReset ++ 0x00#8 ++ p.selfReset
      | .crcAcc => 0x0000#16 ++ p.crcInitVal
      | .crcFinal => 0x0000#16 ++ (p.crcInitVal ^^^ p.crcXorOut)
      | _ => 0#32

/-- The invariant holds right after a successful RESET, for every parameter set in its ranges. That the machine's own
`State.reset` is such a state rests on the model's choice of parameter values (log 1) and of a successful
initialisation (log 5). -/
def Obligations.InvAfterReset : Prop :=
  (∀ p : Params, p.wellFormed → Inv (State.afterReset p)) ∧ Inv State.reset

/-- Every step keeps the invariant `Inv`, and so does an access that is answered with an error, after which the block goes
on (log 6). Its clauses: the parameters' ranges (00_scope.md R10 to R15); the buffers' canonical form (log 8) within the
offsets of 20_memory.md R81; the Pending Send (10_state.md R36, R37; 43_send.md R222, R225, R226, R231); SEND_RESULT
(60_exceptions.md R321); the queue, its records and every reading (10_state.md R39, R40, R45; 41_codec.md R174); the run
bits (44_receive.md R260, R261; 70_reset_and_hazards.md R351); WIRE_TX_LEN (30_encoding.md R125); the decoded header and
the filter's verdict (41_codec.md R176; 42_filter_config.md R201). -/
def Obligations.StepKeepsInv : Prop :=
  (∀ s t : State, Inv s → step s = .next t → Inv t) ∧ (∀ s : State, Inv s → Inv s.resume)

/-- Nodes share no state: an event at one node, and what the channel delivers to it, leave every other node as it was
(60_exceptions.md R334). -/
def Obligations.NodesShareNoState : Prop :=
  ∀ (net : Network) (j k : Nat) (e : Event) (bytes : List Byte) (rssi : Rssi), j ≠ k →
    (net.event k e).nodes[j]? = net.nodes[j]? ∧ (net.deliver k bytes rssi).nodes[j]? = net.nodes[j]?
end

