-- ==== Sys2Proof/Laws/State.lean ====
section
/-! SUPPORT. Each field of State after each shared update: one lemma per field per update, so that no proof
unfolds a record update. -/

namespace Sys2Proof.Machine

/-! ### setResult -/

@[simp] theorem setResult_cfg (r : CmdResult) (s : State) : (s.setResult r).cfg = s.cfg := rfl
@[simp] theorem setResult_conf (r : CmdResult) (s : State) : (s.setResult r).conf = s.conf := rfl
@[simp] theorem setResult_run (r : CmdResult) (s : State) : (s.setResult r).run = s.run := rfl
@[simp] theorem setResult_txSeq (r : CmdResult) (s : State) : (s.setResult r).txSeq = s.txSeq := rfl
@[simp] theorem setResult_pend (r : CmdResult) (s : State) : (s.setResult r).pend = s.pend := rfl
@[simp] theorem setResult_peer (r : CmdResult) (s : State) : (s.setResult r).peer = s.peer := rfl
@[simp] theorem setResult_rxq (r : CmdResult) (s : State) : (s.setResult r).rxq = s.rxq := rfl
@[simp] theorem setResult_rxqOut (r : CmdResult) (s : State) : (s.setResult r).rxqOut = s.rxqOut := rfl
@[simp] theorem setResult_data (r : CmdResult) (s : State) : (s.setResult r).data = s.data := rfl
@[simp] theorem setResult_crc (r : CmdResult) (s : State) : (s.setResult r).crc = s.crc := rfl
@[simp] theorem setResult_wireTxLen (r : CmdResult) (s : State) :
    (s.setResult r).wireTxLen = s.wireTxLen := rfl
@[simp] theorem setResult_dec (r : CmdResult) (s : State) : (s.setResult r).dec = s.dec := rfl
@[simp] theorem setResult_cmdResult (r : CmdResult) (s : State) : (s.setResult r).cmdResult = r := rfl
@[simp] theorem setResult_sendResult (r : CmdResult) (s : State) :
    (s.setResult r).sendResult = s.sendResult := rfl
@[simp] theorem setResult_tel (r : CmdResult) (s : State) : (s.setResult r).tel = s.tel := rfl
@[simp] theorem setResult_mem (r : CmdResult) (s : State) : (s.setResult r).mem = s.mem := rfl
@[simp] theorem setResult_trace (r : CmdResult) (s : State) : (s.setResult r).trace = s.trace := rfl
@[simp] theorem setResult_trx (r : CmdResult) (s : State) : (s.setResult r).trx = s.trx := rfl
@[simp] theorem setResult_events (r : CmdResult) (s : State) : (s.setResult r).events = s.events := rfl
@[simp] theorem setResult_busReply (r : CmdResult) (s : State) :
    (s.setResult r).busReply = s.busReply := rfl

/-! ### setSendResult -/

@[simp] theorem setSendResult_cfg (code : SrCode) (id attempts : Byte) (s : State) :
    (s.setSendResult code id attempts).cfg = s.cfg := rfl
@[simp] theorem setSendResult_conf (code : SrCode) (id attempts : Byte) (s : State) :
    (s.setSendResult code id attempts).conf = s.conf := rfl
@[simp] theorem setSendResult_run (code : SrCode) (id attempts : Byte) (s : State) :
    (s.setSendResult code id attempts).run = s.run := rfl
@[simp] theorem setSendResult_txSeq (code : SrCode) (id attempts : Byte) (s : State) :
    (s.setSendResult code id attempts).txSeq = s.txSeq := rfl
@[simp] theorem setSendResult_pend (code : SrCode) (id attempts : Byte) (s : State) :
    (s.setSendResult code id attempts).pend = s.pend := rfl
@[simp] theorem setSendResult_peer (code : SrCode) (id attempts : Byte) (s : State) :
    (s.setSendResult code id attempts).peer = s.peer := rfl
@[simp] theorem setSendResult_rxq (code : SrCode) (id attempts : Byte) (s : State) :
    (s.setSendResult code id attempts).rxq = s.rxq := rfl
@[simp] theorem setSendResult_rxqOut (code : SrCode) (id attempts : Byte) (s : State) :
    (s.setSendResult code id attempts).rxqOut = s.rxqOut := rfl
@[simp] theorem setSendResult_data (code : SrCode) (id attempts : Byte) (s : State) :
    (s.setSendResult code id attempts).data = s.data := rfl
@[simp] theorem setSendResult_crc (code : SrCode) (id attempts : Byte) (s : State) :
    (s.setSendResult code id attempts).crc = s.crc := rfl
@[simp] theorem setSendResult_wireTxLen (code : SrCode) (id attempts : Byte) (s : State) :
    (s.setSendResult code id attempts).wireTxLen = s.wireTxLen := rfl
@[simp] theorem setSendResult_dec (code : SrCode) (id attempts : Byte) (s : State) :
    (s.setSendResult code id attempts).dec = s.dec := rfl
@[simp] theorem setSendResult_cmdResult (code : SrCode) (id attempts : Byte) (s : State) :
    (s.setSendResult code id attempts).cmdResult = s.cmdResult := rfl
@[simp] theorem setSendResult_sendResult (code : SrCode) (id attempts : Byte) (s : State) :
    (s.setSendResult code id attempts).sendResult = ⟨code, id, attempts⟩ := rfl
@[simp] theorem setSendResult_tel (code : SrCode) (id attempts : Byte) (s : State) :
    (s.setSendResult code id attempts).tel = s.tel := rfl
@[simp] theorem setSendResult_mem (code : SrCode) (id attempts : Byte) (s : State) :
    (s.setSendResult code id attempts).mem = s.mem := rfl
@[simp] theorem setSendResult_trace (code : SrCode) (id attempts : Byte) (s : State) :
    (s.setSendResult code id attempts).trace = s.trace := rfl
@[simp] theorem setSendResult_trx (code : SrCode) (id attempts : Byte) (s : State) :
    (s.setSendResult code id attempts).trx = s.trx := rfl
@[simp] theorem setSendResult_events (code : SrCode) (id attempts : Byte) (s : State) :
    (s.setSendResult code id attempts).events = s.events := rfl
@[simp] theorem setSendResult_busReply (code : SrCode) (id attempts : Byte) (s : State) :
    (s.setSendResult code id attempts).busReply = s.busReply := rfl

/-! ### setPState -/

@[simp] theorem setPState_cfg (p : PState) (s : State) : (s.setPState p).cfg = s.cfg := rfl
@[simp] theorem setPState_conf (p : PState) (s : State) : (s.setPState p).conf = s.conf := rfl
@[simp] theorem setPState_run (p : PState) (s : State) : (s.setPState p).run = s.run := rfl
@[simp] theorem setPState_txSeq (p : PState) (s : State) : (s.setPState p).txSeq = s.txSeq := rfl
@[simp] theorem setPState_pend (p : PState) (s : State) :
    (s.setPState p).pend = { s.pend with state := p } := rfl
@[simp] theorem setPState_peer (p : PState) (s : State) : (s.setPState p).peer = s.peer := rfl
@[simp] theorem setPState_rxq (p : PState) (s : State) : (s.setPState p).rxq = s.rxq := rfl
@[simp] theorem setPState_rxqOut (p : PState) (s : State) : (s.setPState p).rxqOut = s.rxqOut := rfl
@[simp] theorem setPState_data (p : PState) (s : State) : (s.setPState p).data = s.data := rfl
@[simp] theorem setPState_crc (p : PState) (s : State) : (s.setPState p).crc = s.crc := rfl
@[simp] theorem setPState_wireTxLen (p : PState) (s : State) :
    (s.setPState p).wireTxLen = s.wireTxLen := rfl
@[simp] theorem setPState_dec (p : PState) (s : State) : (s.setPState p).dec = s.dec := rfl
@[simp] theorem setPState_cmdResult (p : PState) (s : State) :
    (s.setPState p).cmdResult = s.cmdResult := rfl
@[simp] theorem setPState_sendResult (p : PState) (s : State) :
    (s.setPState p).sendResult = s.sendResult := rfl
@[simp] theorem setPState_tel (p : PState) (s : State) : (s.setPState p).tel = s.tel := rfl
@[simp] theorem setPState_mem (p : PState) (s : State) : (s.setPState p).mem = s.mem := rfl
@[simp] theorem setPState_trace (p : PState) (s : State) : (s.setPState p).trace = s.trace := rfl
@[simp] theorem setPState_trx (p : PState) (s : State) : (s.setPState p).trx = s.trx := rfl
@[simp] theorem setPState_events (p : PState) (s : State) : (s.setPState p).events = s.events := rfl
@[simp] theorem setPState_busReply (p : PState) (s : State) : (s.setPState p).busReply = s.busReply := rfl

/-! ### setPeer -/

@[simp] theorem setPeer_cfg (a : Byte) (e : PeerEntry) (s : State) : (s.setPeer a e).cfg = s.cfg := rfl
@[simp] theorem setPeer_conf (a : Byte) (e : PeerEntry) (s : State) : (s.setPeer a e).conf = s.conf := rfl
@[simp] theorem setPeer_run (a : Byte) (e : PeerEntry) (s : State) : (s.setPeer a e).run = s.run := rfl
@[simp] theorem setPeer_txSeq (a : Byte) (e : PeerEntry) (s : State) :
    (s.setPeer a e).txSeq = s.txSeq := rfl
@[simp] theorem setPeer_pend (a : Byte) (e : PeerEntry) (s : State) : (s.setPeer a e).pend = s.pend := rfl
@[simp] theorem setPeer_peer (a : Byte) (e : PeerEntry) (s : State) :
    (s.setPeer a e).peer = s.peer.set a.toNat e := rfl
@[simp] theorem setPeer_rxq (a : Byte) (e : PeerEntry) (s : State) : (s.setPeer a e).rxq = s.rxq := rfl
@[simp] theorem setPeer_rxqOut (a : Byte) (e : PeerEntry) (s : State) :
    (s.setPeer a e).rxqOut = s.rxqOut := rfl
@[simp] theorem setPeer_data (a : Byte) (e : PeerEntry) (s : State) : (s.setPeer a e).data = s.data := rfl
@[simp] theorem setPeer_crc (a : Byte) (e : PeerEntry) (s : State) : (s.setPeer a e).crc = s.crc := rfl
@[simp] theorem setPeer_wireTxLen (a : Byte) (e : PeerEntry) (s : State) :
    (s.setPeer a e).wireTxLen = s.wireTxLen := rfl
@[simp] theorem setPeer_dec (a : Byte) (e : PeerEntry) (s : State) : (s.setPeer a e).dec = s.dec := rfl
@[simp] theorem setPeer_cmdResult (a : Byte) (e : PeerEntry) (s : State) :
    (s.setPeer a e).cmdResult = s.cmdResult := rfl
@[simp] theorem setPeer_sendResult (a : Byte) (e : PeerEntry) (s : State) :
    (s.setPeer a e).sendResult = s.sendResult := rfl
@[simp] theorem setPeer_tel (a : Byte) (e : PeerEntry) (s : State) : (s.setPeer a e).tel = s.tel := rfl
@[simp] theorem setPeer_mem (a : Byte) (e : PeerEntry) (s : State) : (s.setPeer a e).mem = s.mem := rfl
@[simp] theorem setPeer_trace (a : Byte) (e : PeerEntry) (s : State) :
    (s.setPeer a e).trace = s.trace := rfl
@[simp] theorem setPeer_trx (a : Byte) (e : PeerEntry) (s : State) : (s.setPeer a e).trx = s.trx := rfl
@[simp] theorem setPeer_events (a : Byte) (e : PeerEntry) (s : State) :
    (s.setPeer a e).events = s.events := rfl
@[simp] theorem setPeer_busReply (a : Byte) (e : PeerEntry) (s : State) :
    (s.setPeer a e).busReply = s.busReply := rfl

/-! ### logCall -/

@[simp] theorem logCall_cfg (c : TrxCall) (s : State) : (s.logCall c).cfg = s.cfg := rfl
@[simp] theorem logCall_conf (c : TrxCall) (s : State) : (s.logCall c).conf = s.conf := rfl
@[simp] theorem logCall_run (c : TrxCall) (s : State) : (s.logCall c).run = s.run := rfl
@[simp] theorem logCall_txSeq (c : TrxCall) (s : State) : (s.logCall c).txSeq = s.txSeq := rfl
@[simp] theorem logCall_pend (c : TrxCall) (s : State) : (s.logCall c).pend = s.pend := rfl
@[simp] theorem logCall_peer (c : TrxCall) (s : State) : (s.logCall c).peer = s.peer := rfl
@[simp] theorem logCall_rxq (c : TrxCall) (s : State) : (s.logCall c).rxq = s.rxq := rfl
@[simp] theorem logCall_rxqOut (c : TrxCall) (s : State) : (s.logCall c).rxqOut = s.rxqOut := rfl
@[simp] theorem logCall_data (c : TrxCall) (s : State) : (s.logCall c).data = s.data := rfl
@[simp] theorem logCall_crc (c : TrxCall) (s : State) : (s.logCall c).crc = s.crc := rfl
@[simp] theorem logCall_wireTxLen (c : TrxCall) (s : State) : (s.logCall c).wireTxLen = s.wireTxLen := rfl
@[simp] theorem logCall_dec (c : TrxCall) (s : State) : (s.logCall c).dec = s.dec := rfl
@[simp] theorem logCall_cmdResult (c : TrxCall) (s : State) : (s.logCall c).cmdResult = s.cmdResult := rfl
@[simp] theorem logCall_sendResult (c : TrxCall) (s : State) :
    (s.logCall c).sendResult = s.sendResult := rfl
@[simp] theorem logCall_tel (c : TrxCall) (s : State) : (s.logCall c).tel = s.tel := rfl
@[simp] theorem logCall_mem (c : TrxCall) (s : State) : (s.logCall c).mem = s.mem := rfl
@[simp] theorem logCall_trace (c : TrxCall) (s : State) : (s.logCall c).trace = s.trace ++ [c] := rfl
@[simp] theorem logCall_trx (c : TrxCall) (s : State) : (s.logCall c).trx = s.trx := rfl
@[simp] theorem logCall_events (c : TrxCall) (s : State) : (s.logCall c).events = s.events := rfl
@[simp] theorem logCall_busReply (c : TrxCall) (s : State) : (s.logCall c).busReply = s.busReply := rfl

/-! ### callInit -/

@[simp] theorem callInit_cfg (s : State) : (s.callInit).cfg = s.cfg := rfl
@[simp] theorem callInit_conf (s : State) : (s.callInit).conf = s.conf := rfl
@[simp] theorem callInit_run (s : State) : (s.callInit).run = s.run := rfl
@[simp] theorem callInit_txSeq (s : State) : (s.callInit).txSeq = s.txSeq := rfl
@[simp] theorem callInit_pend (s : State) : (s.callInit).pend = s.pend := rfl
@[simp] theorem callInit_peer (s : State) : (s.callInit).peer = s.peer := rfl
@[simp] theorem callInit_rxq (s : State) : (s.callInit).rxq = s.rxq := rfl
@[simp] theorem callInit_rxqOut (s : State) : (s.callInit).rxqOut = s.rxqOut := rfl
@[simp] theorem callInit_data (s : State) : (s.callInit).data = s.data := rfl
@[simp] theorem callInit_crc (s : State) : (s.callInit).crc = s.crc := rfl
@[simp] theorem callInit_wireTxLen (s : State) : (s.callInit).wireTxLen = s.wireTxLen := rfl
@[simp] theorem callInit_dec (s : State) : (s.callInit).dec = s.dec := rfl
@[simp] theorem callInit_cmdResult (s : State) : (s.callInit).cmdResult = s.cmdResult := rfl
@[simp] theorem callInit_sendResult (s : State) : (s.callInit).sendResult = s.sendResult := rfl
@[simp] theorem callInit_tel (s : State) : (s.callInit).tel = s.tel := rfl
@[simp] theorem callInit_mem (s : State) : (s.callInit).mem = s.mem := rfl
@[simp] theorem callInit_trace (s : State) : (s.callInit).trace = s.trace ++ [.init] := rfl
@[simp] theorem callInit_trx (s : State) :
    (s.callInit).trx = { s.trx with inits := s.trx.inits.tail, answered := s.trx.answered ++ [.init s.initAnswer] } := rfl
@[simp] theorem callInit_events (s : State) : (s.callInit).events = s.events := rfl
@[simp] theorem callInit_busReply (s : State) : (s.callInit).busReply = s.busReply := rfl

/-! ### callFrameReady -/

@[simp] theorem callFrameReady_cfg (s : State) : (s.callFrameReady).cfg = s.cfg := rfl
@[simp] theorem callFrameReady_conf (s : State) : (s.callFrameReady).conf = s.conf := rfl
@[simp] theorem callFrameReady_run (s : State) : (s.callFrameReady).run = s.run := rfl
@[simp] theorem callFrameReady_txSeq (s : State) : (s.callFrameReady).txSeq = s.txSeq := rfl
@[simp] theorem callFrameReady_pend (s : State) : (s.callFrameReady).pend = s.pend := rfl
@[simp] theorem callFrameReady_peer (s : State) : (s.callFrameReady).peer = s.peer := rfl
@[simp] theorem callFrameReady_rxq (s : State) : (s.callFrameReady).rxq = s.rxq := rfl
@[simp] theorem callFrameReady_rxqOut (s : State) : (s.callFrameReady).rxqOut = s.rxqOut := rfl
@[simp] theorem callFrameReady_data (s : State) : (s.callFrameReady).data = s.data := rfl
@[simp] theorem callFrameReady_crc (s : State) : (s.callFrameReady).crc = s.crc := rfl
@[simp] theorem callFrameReady_wireTxLen (s : State) : (s.callFrameReady).wireTxLen = s.wireTxLen := rfl
@[simp] theorem callFrameReady_dec (s : State) : (s.callFrameReady).dec = s.dec := rfl
@[simp] theorem callFrameReady_cmdResult (s : State) : (s.callFrameReady).cmdResult = s.cmdResult := rfl
@[simp] theorem callFrameReady_sendResult (s : State) : (s.callFrameReady).sendResult = s.sendResult := rfl
@[simp] theorem callFrameReady_tel (s : State) : (s.callFrameReady).tel = s.tel := rfl
@[simp] theorem callFrameReady_mem (s : State) : (s.callFrameReady).mem = s.mem := rfl
@[simp] theorem callFrameReady_trace (s : State) :
    (s.callFrameReady).trace = s.trace ++ [.frameReady] := rfl
@[simp] theorem callFrameReady_trx (s : State) :
    (s.callFrameReady).trx = { s.trx with readies := s.trx.readies.tail, answered := s.trx.answered ++ [.frameReady s.readyAnswer] } := rfl
@[simp] theorem callFrameReady_events (s : State) : (s.callFrameReady).events = s.events := rfl
@[simp] theorem callFrameReady_busReply (s : State) : (s.callFrameReady).busReply = s.busReply := rfl

/-! ### callReceiveRaw -/

@[simp] theorem callReceiveRaw_cfg (s : State) : (s.callReceiveRaw).cfg = s.cfg := rfl
@[simp] theorem callReceiveRaw_conf (s : State) : (s.callReceiveRaw).conf = s.conf := rfl
@[simp] theorem callReceiveRaw_run (s : State) : (s.callReceiveRaw).run = s.run := rfl
@[simp] theorem callReceiveRaw_txSeq (s : State) : (s.callReceiveRaw).txSeq = s.txSeq := rfl
@[simp] theorem callReceiveRaw_pend (s : State) : (s.callReceiveRaw).pend = s.pend := rfl
@[simp] theorem callReceiveRaw_peer (s : State) : (s.callReceiveRaw).peer = s.peer := rfl
@[simp] theorem callReceiveRaw_rxq (s : State) : (s.callReceiveRaw).rxq = s.rxq := rfl
@[simp] theorem callReceiveRaw_rxqOut (s : State) : (s.callReceiveRaw).rxqOut = s.rxqOut := rfl
@[simp] theorem callReceiveRaw_data (s : State) : (s.callReceiveRaw).data = s.data := rfl
@[simp] theorem callReceiveRaw_crc (s : State) : (s.callReceiveRaw).crc = s.crc := rfl
@[simp] theorem callReceiveRaw_wireTxLen (s : State) : (s.callReceiveRaw).wireTxLen = s.wireTxLen := rfl
@[simp] theorem callReceiveRaw_dec (s : State) : (s.callReceiveRaw).dec = s.dec := rfl
@[simp] theorem callReceiveRaw_cmdResult (s : State) : (s.callReceiveRaw).cmdResult = s.cmdResult := rfl
@[simp] theorem callReceiveRaw_sendResult (s : State) : (s.callReceiveRaw).sendResult = s.sendResult := rfl
@[simp] theorem callReceiveRaw_tel (s : State) : (s.callReceiveRaw).tel = s.tel := rfl
@[simp] theorem callReceiveRaw_mem (s : State) : (s.callReceiveRaw).mem = s.mem := rfl
@[simp] theorem callReceiveRaw_trace (s : State) :
    (s.callReceiveRaw).trace = s.trace ++ [.receiveRaw] := rfl
@[simp] theorem callReceiveRaw_trx (s : State) :
    (s.callReceiveRaw).trx = { s.trx with receives := s.trx.receives.tail, answered := s.trx.answered ++ [.receiveRaw s.receiveAnswer.1 s.receiveAnswer.2] } := rfl
@[simp] theorem callReceiveRaw_events (s : State) : (s.callReceiveRaw).events = s.events := rfl
@[simp] theorem callReceiveRaw_busReply (s : State) : (s.callReceiveRaw).busReply = s.busReply := rfl

/-! ### callTransmitRaw -/

@[simp] theorem callTransmitRaw_cfg (image : List Byte) (s : State) :
    (s.callTransmitRaw image).cfg = s.cfg := rfl
@[simp] theorem callTransmitRaw_conf (image : List Byte) (s : State) :
    (s.callTransmitRaw image).conf = s.conf := rfl
@[simp] theorem callTransmitRaw_run (image : List Byte) (s : State) :
    (s.callTransmitRaw image).run = s.run := rfl
@[simp] theorem callTransmitRaw_txSeq (image : List Byte) (s : State) :
    (s.callTransmitRaw image).txSeq = s.txSeq := rfl
@[simp] theorem callTransmitRaw_pend (image : List Byte) (s : State) :
    (s.callTransmitRaw image).pend = s.pend := rfl
@[simp] theorem callTransmitRaw_peer (image : List Byte) (s : State) :
    (s.callTransmitRaw image).peer = s.peer := rfl
@[simp] theorem callTransmitRaw_rxq (image : List Byte) (s : State) :
    (s.callTransmitRaw image).rxq = s.rxq := rfl
@[simp] theorem callTransmitRaw_rxqOut (image : List Byte) (s : State) :
    (s.callTransmitRaw image).rxqOut = s.rxqOut := rfl
@[simp] theorem callTransmitRaw_data (image : List Byte) (s : State) :
    (s.callTransmitRaw image).data = s.data := rfl
@[simp] theorem callTransmitRaw_crc (image : List Byte) (s : State) :
    (s.callTransmitRaw image).crc = s.crc := rfl
@[simp] theorem callTransmitRaw_wireTxLen (image : List Byte) (s : State) :
    (s.callTransmitRaw image).wireTxLen = s.wireTxLen := rfl
@[simp] theorem callTransmitRaw_dec (image : List Byte) (s : State) :
    (s.callTransmitRaw image).dec = s.dec := rfl
@[simp] theorem callTransmitRaw_cmdResult (image : List Byte) (s : State) :
    (s.callTransmitRaw image).cmdResult = s.cmdResult := rfl
@[simp] theorem callTransmitRaw_sendResult (image : List Byte) (s : State) :
    (s.callTransmitRaw image).sendResult = s.sendResult := rfl
@[simp] theorem callTransmitRaw_tel (image : List Byte) (s : State) :
    (s.callTransmitRaw image).tel = s.tel := rfl
@[simp] theorem callTransmitRaw_mem (image : List Byte) (s : State) :
    (s.callTransmitRaw image).mem = s.mem := rfl
@[simp] theorem callTransmitRaw_trace (image : List Byte) (s : State) :
    (s.callTransmitRaw image).trace = s.trace ++ [.transmitRaw image] := rfl
@[simp] theorem callTransmitRaw_trx (image : List Byte) (s : State) :
    (s.callTransmitRaw image).trx = { s.trx with transmits := s.trx.transmits.tail, answered := s.trx.answered ++ [.transmitRaw s.transmitAnswer] } := rfl
@[simp] theorem callTransmitRaw_events (image : List Byte) (s : State) :
    (s.callTransmitRaw image).events = s.events := rfl
@[simp] theorem callTransmitRaw_busReply (image : List Byte) (s : State) :
    (s.callTransmitRaw image).busReply = s.busReply := rfl

/-! ### callSetMode -/

@[simp] theorem callSetMode_cfg (m : TrxMode) (s : State) : (s.callSetMode m).cfg = s.cfg := rfl
@[simp] theorem callSetMode_conf (m : TrxMode) (s : State) : (s.callSetMode m).conf = s.conf := rfl
@[simp] theorem callSetMode_run (m : TrxMode) (s : State) : (s.callSetMode m).run = s.run := rfl
@[simp] theorem callSetMode_txSeq (m : TrxMode) (s : State) : (s.callSetMode m).txSeq = s.txSeq := rfl
@[simp] theorem callSetMode_pend (m : TrxMode) (s : State) : (s.callSetMode m).pend = s.pend := rfl
@[simp] theorem callSetMode_peer (m : TrxMode) (s : State) : (s.callSetMode m).peer = s.peer := rfl
@[simp] theorem callSetMode_rxq (m : TrxMode) (s : State) : (s.callSetMode m).rxq = s.rxq := rfl
@[simp] theorem callSetMode_rxqOut (m : TrxMode) (s : State) : (s.callSetMode m).rxqOut = s.rxqOut := rfl
@[simp] theorem callSetMode_data (m : TrxMode) (s : State) : (s.callSetMode m).data = s.data := rfl
@[simp] theorem callSetMode_crc (m : TrxMode) (s : State) : (s.callSetMode m).crc = s.crc := rfl
@[simp] theorem callSetMode_wireTxLen (m : TrxMode) (s : State) :
    (s.callSetMode m).wireTxLen = s.wireTxLen := rfl
@[simp] theorem callSetMode_dec (m : TrxMode) (s : State) : (s.callSetMode m).dec = s.dec := rfl
@[simp] theorem callSetMode_cmdResult (m : TrxMode) (s : State) :
    (s.callSetMode m).cmdResult = s.cmdResult := rfl
@[simp] theorem callSetMode_sendResult (m : TrxMode) (s : State) :
    (s.callSetMode m).sendResult = s.sendResult := rfl
@[simp] theorem callSetMode_tel (m : TrxMode) (s : State) : (s.callSetMode m).tel = s.tel := rfl
@[simp] theorem callSetMode_mem (m : TrxMode) (s : State) : (s.callSetMode m).mem = s.mem := rfl
@[simp] theorem callSetMode_trace (m : TrxMode) (s : State) :
    (s.callSetMode m).trace = s.trace ++ [.setMode m] := rfl
@[simp] theorem callSetMode_trx (m : TrxMode) (s : State) : (s.callSetMode m).trx = s.trx := rfl
@[simp] theorem callSetMode_events (m : TrxMode) (s : State) : (s.callSetMode m).events = s.events := rfl
@[simp] theorem callSetMode_busReply (m : TrxMode) (s : State) :
    (s.callSetMode m).busReply = s.busReply := rfl

/-! ### callSetAddress -/

@[simp] theorem callSetAddress_cfg (s : State) : (s.callSetAddress).cfg = s.cfg := rfl
@[simp] theorem callSetAddress_conf (s : State) : (s.callSetAddress).conf = s.conf := rfl
@[simp] theorem callSetAddress_run (s : State) : (s.callSetAddress).run = s.run := rfl
@[simp] theorem callSetAddress_txSeq (s : State) : (s.callSetAddress).txSeq = s.txSeq := rfl
@[simp] theorem callSetAddress_pend (s : State) : (s.callSetAddress).pend = s.pend := rfl
@[simp] theorem callSetAddress_peer (s : State) : (s.callSetAddress).peer = s.peer := rfl
@[simp] theorem callSetAddress_rxq (s : State) : (s.callSetAddress).rxq = s.rxq := rfl
@[simp] theorem callSetAddress_rxqOut (s : State) : (s.callSetAddress).rxqOut = s.rxqOut := rfl
@[simp] theorem callSetAddress_data (s : State) : (s.callSetAddress).data = s.data := rfl
@[simp] theorem callSetAddress_crc (s : State) : (s.callSetAddress).crc = s.crc := rfl
@[simp] theorem callSetAddress_wireTxLen (s : State) : (s.callSetAddress).wireTxLen = s.wireTxLen := rfl
@[simp] theorem callSetAddress_dec (s : State) : (s.callSetAddress).dec = s.dec := rfl
@[simp] theorem callSetAddress_cmdResult (s : State) : (s.callSetAddress).cmdResult = s.cmdResult := rfl
@[simp] theorem callSetAddress_sendResult (s : State) : (s.callSetAddress).sendResult = s.sendResult := rfl
@[simp] theorem callSetAddress_tel (s : State) : (s.callSetAddress).tel = s.tel := rfl
@[simp] theorem callSetAddress_mem (s : State) : (s.callSetAddress).mem = s.mem := rfl
@[simp] theorem callSetAddress_trace (s : State) :
    (s.callSetAddress).trace = s.trace ++ [.setAddress s.conf.self s.conf.promisc] := rfl
@[simp] theorem callSetAddress_trx (s : State) : (s.callSetAddress).trx = s.trx := rfl
@[simp] theorem callSetAddress_events (s : State) : (s.callSetAddress).events = s.events := rfl
@[simp] theorem callSetAddress_busReply (s : State) : (s.callSetAddress).busReply = s.busReply := rfl

/-! ### transmit -/

@[simp] theorem transmit_cfg (image : List Byte) (s : State) : (s.transmit image).cfg = s.cfg := rfl
@[simp] theorem transmit_conf (image : List Byte) (s : State) : (s.transmit image).conf = s.conf := rfl
@[simp] theorem transmit_run (image : List Byte) (s : State) : (s.transmit image).run = s.run := rfl
@[simp] theorem transmit_txSeq (image : List Byte) (s : State) : (s.transmit image).txSeq = s.txSeq := rfl
@[simp] theorem transmit_pend (image : List Byte) (s : State) : (s.transmit image).pend = s.pend := rfl
@[simp] theorem transmit_peer (image : List Byte) (s : State) : (s.transmit image).peer = s.peer := rfl
@[simp] theorem transmit_rxq (image : List Byte) (s : State) : (s.transmit image).rxq = s.rxq := rfl
@[simp] theorem transmit_rxqOut (image : List Byte) (s : State) :
    (s.transmit image).rxqOut = s.rxqOut := rfl
@[simp] theorem transmit_data (image : List Byte) (s : State) : (s.transmit image).data = s.data := rfl
@[simp] theorem transmit_crc (image : List Byte) (s : State) : (s.transmit image).crc = s.crc := rfl
@[simp] theorem transmit_wireTxLen (image : List Byte) (s : State) :
    (s.transmit image).wireTxLen = s.wireTxLen := rfl
@[simp] theorem transmit_dec (image : List Byte) (s : State) : (s.transmit image).dec = s.dec := rfl
@[simp] theorem transmit_cmdResult (image : List Byte) (s : State) :
    (s.transmit image).cmdResult = s.cmdResult := rfl
@[simp] theorem transmit_sendResult (image : List Byte) (s : State) :
    (s.transmit image).sendResult = s.sendResult := rfl
@[simp] theorem transmit_tel (image : List Byte) (s : State) : (s.transmit image).tel = s.tel := rfl
@[simp] theorem transmit_mem (image : List Byte) (s : State) : (s.transmit image).mem = s.mem := rfl
@[simp] theorem transmit_trace (image : List Byte) (s : State) :
    (s.transmit image).trace = s.trace ++ [.transmitRaw image] ++ [.setMode .receive] := rfl
@[simp] theorem transmit_trx (image : List Byte) (s : State) :
    (s.transmit image).trx = { s.trx with transmits := s.trx.transmits.tail, answered := s.trx.answered ++ [.transmitRaw s.transmitAnswer] } := rfl
@[simp] theorem transmit_events (image : List Byte) (s : State) :
    (s.transmit image).events = s.events := rfl
@[simp] theorem transmit_busReply (image : List Byte) (s : State) :
    (s.transmit image).busReply = s.busReply := rfl

/-! ### fillBuffer -/

@[simp] theorem fillBuffer_cfg (b : Buffer) (bytes : List Byte) (s : State) :
    (s.fillBuffer b bytes).cfg = s.cfg := rfl
@[simp] theorem fillBuffer_conf (b : Buffer) (bytes : List Byte) (s : State) :
    (s.fillBuffer b bytes).conf = s.conf := rfl
@[simp] theorem fillBuffer_run (b : Buffer) (bytes : List Byte) (s : State) :
    (s.fillBuffer b bytes).run = s.run := rfl
@[simp] theorem fillBuffer_txSeq (b : Buffer) (bytes : List Byte) (s : State) :
    (s.fillBuffer b bytes).txSeq = s.txSeq := rfl
@[simp] theorem fillBuffer_pend (b : Buffer) (bytes : List Byte) (s : State) :
    (s.fillBuffer b bytes).pend = s.pend := rfl
@[simp] theorem fillBuffer_peer (b : Buffer) (bytes : List Byte) (s : State) :
    (s.fillBuffer b bytes).peer = s.peer := rfl
@[simp] theorem fillBuffer_rxq (b : Buffer) (bytes : List Byte) (s : State) :
    (s.fillBuffer b bytes).rxq = s.rxq := rfl
@[simp] theorem fillBuffer_rxqOut (b : Buffer) (bytes : List Byte) (s : State) :
    (s.fillBuffer b bytes).rxqOut = s.rxqOut := rfl
@[simp] theorem fillBuffer_data (b : Buffer) (bytes : List Byte) (s : State) :
    (s.fillBuffer b bytes).data = s.data := rfl
@[simp] theorem fillBuffer_crc (b : Buffer) (bytes : List Byte) (s : State) :
    (s.fillBuffer b bytes).crc = s.crc := rfl
@[simp] theorem fillBuffer_wireTxLen (b : Buffer) (bytes : List Byte) (s : State) :
    (s.fillBuffer b bytes).wireTxLen = s.wireTxLen := rfl
@[simp] theorem fillBuffer_dec (b : Buffer) (bytes : List Byte) (s : State) :
    (s.fillBuffer b bytes).dec = s.dec := rfl
@[simp] theorem fillBuffer_cmdResult (b : Buffer) (bytes : List Byte) (s : State) :
    (s.fillBuffer b bytes).cmdResult = s.cmdResult := rfl
@[simp] theorem fillBuffer_sendResult (b : Buffer) (bytes : List Byte) (s : State) :
    (s.fillBuffer b bytes).sendResult = s.sendResult := rfl
@[simp] theorem fillBuffer_tel (b : Buffer) (bytes : List Byte) (s : State) :
    (s.fillBuffer b bytes).tel = s.tel := rfl
@[simp] theorem fillBuffer_mem (b : Buffer) (bytes : List Byte) (s : State) :
    (s.fillBuffer b bytes).mem = Memory.clear (Memory.writeBytes s.mem b.start (bytes.take b.size)) (b.start + (bytes.take b.size).length) (b.size - (bytes.take b.size).length) := rfl
@[simp] theorem fillBuffer_trace (b : Buffer) (bytes : List Byte) (s : State) :
    (s.fillBuffer b bytes).trace = s.trace := rfl
@[simp] theorem fillBuffer_trx (b : Buffer) (bytes : List Byte) (s : State) :
    (s.fillBuffer b bytes).trx = s.trx := rfl
@[simp] theorem fillBuffer_events (b : Buffer) (bytes : List Byte) (s : State) :
    (s.fillBuffer b bytes).events = s.events := rfl
@[simp] theorem fillBuffer_busReply (b : Buffer) (bytes : List Byte) (s : State) :
    (s.fillBuffer b bytes).busReply = s.busReply := rfl

/-! ### allocId -/

@[simp] theorem allocId_cfg (s : State) : (s.allocId).cfg = s.cfg := rfl
@[simp] theorem allocId_conf (s : State) : (s.allocId).conf = s.conf := rfl
@[simp] theorem allocId_run (s : State) : (s.allocId).run = s.run := rfl
@[simp] theorem allocId_txSeq (s : State) : (s.allocId).txSeq = s.txSeq + 1 := rfl
@[simp] theorem allocId_pend (s : State) : (s.allocId).pend = s.pend := rfl
@[simp] theorem allocId_peer (s : State) : (s.allocId).peer = s.peer := rfl
@[simp] theorem allocId_rxq (s : State) : (s.allocId).rxq = s.rxq := rfl
@[simp] theorem allocId_rxqOut (s : State) : (s.allocId).rxqOut = s.rxqOut := rfl
@[simp] theorem allocId_data (s : State) : (s.allocId).data = s.data := rfl
@[simp] theorem allocId_crc (s : State) : (s.allocId).crc = s.crc := rfl
@[simp] theorem allocId_wireTxLen (s : State) : (s.allocId).wireTxLen = s.wireTxLen := rfl
@[simp] theorem allocId_dec (s : State) : (s.allocId).dec = s.dec := rfl
@[simp] theorem allocId_cmdResult (s : State) : (s.allocId).cmdResult = s.cmdResult := rfl
@[simp] theorem allocId_sendResult (s : State) : (s.allocId).sendResult = s.sendResult := rfl
@[simp] theorem allocId_tel (s : State) : (s.allocId).tel = s.tel := rfl
@[simp] theorem allocId_mem (s : State) : (s.allocId).mem = s.mem := rfl
@[simp] theorem allocId_trace (s : State) : (s.allocId).trace = s.trace := rfl
@[simp] theorem allocId_trx (s : State) : (s.allocId).trx = s.trx := rfl
@[simp] theorem allocId_events (s : State) : (s.allocId).events = s.events := rfl
@[simp] theorem allocId_busReply (s : State) : (s.allocId).busReply = s.busReply := rfl

/-! ### startPending -/

@[simp] theorem startPending_cfg (dest id max : Byte) (timeout : Ticks) (image : List Byte) (s : State) :
    (s.startPending dest id max timeout image).cfg = s.cfg := rfl
@[simp] theorem startPending_conf (dest id max : Byte) (timeout : Ticks) (image : List Byte) (s : State) :
    (s.startPending dest id max timeout image).conf = s.conf := rfl
@[simp] theorem startPending_run (dest id max : Byte) (timeout : Ticks) (image : List Byte) (s : State) :
    (s.startPending dest id max timeout image).run = s.run := rfl
@[simp] theorem startPending_txSeq (dest id max : Byte) (timeout : Ticks) (image : List Byte) (s : State) :
    (s.startPending dest id max timeout image).txSeq = s.txSeq := rfl
@[simp] theorem startPending_pend (dest id max : Byte) (timeout : Ticks) (image : List Byte) (s : State) :
    (s.startPending dest id max timeout image).pend = ⟨s.pend.state, dest, id, 0#8, max, timeout, 0#32, image⟩ := rfl
@[simp] theorem startPending_peer (dest id max : Byte) (timeout : Ticks) (image : List Byte) (s : State) :
    (s.startPending dest id max timeout image).peer = s.peer := rfl
@[simp] theorem startPending_rxq (dest id max : Byte) (timeout : Ticks) (image : List Byte) (s : State) :
    (s.startPending dest id max timeout image).rxq = s.rxq := rfl
@[simp] theorem startPending_rxqOut (dest id max : Byte) (timeout : Ticks) (image : List Byte) (s : State) :
    (s.startPending dest id max timeout image).rxqOut = s.rxqOut := rfl
@[simp] theorem startPending_data (dest id max : Byte) (timeout : Ticks) (image : List Byte) (s : State) :
    (s.startPending dest id max timeout image).data = s.data := rfl
@[simp] theorem startPending_crc (dest id max : Byte) (timeout : Ticks) (image : List Byte) (s : State) :
    (s.startPending dest id max timeout image).crc = s.crc := rfl
@[simp] theorem startPending_wireTxLen (dest id max : Byte) (timeout : Ticks) (image : List Byte) (s : State) :
    (s.startPending dest id max timeout image).wireTxLen = s.wireTxLen := rfl
@[simp] theorem startPending_dec (dest id max : Byte) (timeout : Ticks) (image : List Byte) (s : State) :
    (s.startPending dest id max timeout image).dec = s.dec := rfl
@[simp] theorem startPending_cmdResult (dest id max : Byte) (timeout : Ticks) (image : List Byte) (s : State) :
    (s.startPending dest id max timeout image).cmdResult = s.cmdResult := rfl
@[simp] theorem startPending_sendResult (dest id max : Byte) (timeout : Ticks) (image : List Byte) (s : State) :
    (s.startPending dest id max timeout image).sendResult = s.sendResult := rfl
@[simp] theorem startPending_tel (dest id max : Byte) (timeout : Ticks) (image : List Byte) (s : State) :
    (s.startPending dest id max timeout image).tel = s.tel := rfl
@[simp] theorem startPending_mem (dest id max : Byte) (timeout : Ticks) (image : List Byte) (s : State) :
    (s.startPending dest id max timeout image).mem = s.mem := rfl
@[simp] theorem startPending_trace (dest id max : Byte) (timeout : Ticks) (image : List Byte) (s : State) :
    (s.startPending dest id max timeout image).trace = s.trace := rfl
@[simp] theorem startPending_trx (dest id max : Byte) (timeout : Ticks) (image : List Byte) (s : State) :
    (s.startPending dest id max timeout image).trx = s.trx := rfl
@[simp] theorem startPending_events (dest id max : Byte) (timeout : Ticks) (image : List Byte) (s : State) :
    (s.startPending dest id max timeout image).events = s.events := rfl
@[simp] theorem startPending_busReply (dest id max : Byte) (timeout : Ticks) (image : List Byte) (s : State) :
    (s.startPending dest id max timeout image).busReply = s.busReply := rfl

/-! ### countFailed -/

@[simp] theorem countFailed_cfg (s : State) : (s.countFailed).cfg = s.cfg := rfl
@[simp] theorem countFailed_conf (s : State) : (s.countFailed).conf = s.conf := rfl
@[simp] theorem countFailed_run (s : State) : (s.countFailed).run = s.run := rfl
@[simp] theorem countFailed_txSeq (s : State) : (s.countFailed).txSeq = s.txSeq := rfl
@[simp] theorem countFailed_pend (s : State) :
    (s.countFailed).pend = { s.pend with state := .failed } := rfl
@[simp] theorem countFailed_peer (s : State) : (s.countFailed).peer = s.peer := rfl
@[simp] theorem countFailed_rxq (s : State) : (s.countFailed).rxq = s.rxq := rfl
@[simp] theorem countFailed_rxqOut (s : State) : (s.countFailed).rxqOut = s.rxqOut := rfl
@[simp] theorem countFailed_data (s : State) : (s.countFailed).data = s.data := rfl
@[simp] theorem countFailed_crc (s : State) : (s.countFailed).crc = s.crc := rfl
@[simp] theorem countFailed_wireTxLen (s : State) : (s.countFailed).wireTxLen = s.wireTxLen := rfl
@[simp] theorem countFailed_dec (s : State) : (s.countFailed).dec = s.dec := rfl
@[simp] theorem countFailed_cmdResult (s : State) : (s.countFailed).cmdResult = s.cmdResult := rfl
@[simp] theorem countFailed_sendResult (s : State) : (s.countFailed).sendResult = s.sendResult := rfl
@[simp] theorem countFailed_tel (s : State) :
    (s.countFailed).tel = { s.tel with failed := s.tel.failed + 1 } := rfl
@[simp] theorem countFailed_mem (s : State) : (s.countFailed).mem = s.mem := rfl
@[simp] theorem countFailed_trace (s : State) : (s.countFailed).trace = s.trace := rfl
@[simp] theorem countFailed_trx (s : State) : (s.countFailed).trx = s.trx := rfl
@[simp] theorem countFailed_events (s : State) : (s.countFailed).events = s.events := rfl
@[simp] theorem countFailed_busReply (s : State) : (s.countFailed).busReply = s.busReply := rfl

/-! ### sendOnce -/

@[simp] theorem sendOnce_cfg (image : List Byte) (id : Byte) (s : State) :
    (s.sendOnce image id).cfg = s.cfg := rfl
@[simp] theorem sendOnce_conf (image : List Byte) (id : Byte) (s : State) :
    (s.sendOnce image id).conf = s.conf := rfl
@[simp] theorem sendOnce_run (image : List Byte) (id : Byte) (s : State) :
    (s.sendOnce image id).run = s.run := rfl
@[simp] theorem sendOnce_txSeq (image : List Byte) (id : Byte) (s : State) :
    (s.sendOnce image id).txSeq = s.txSeq := rfl
@[simp] theorem sendOnce_pend (image : List Byte) (id : Byte) (s : State) :
    (s.sendOnce image id).pend = s.pend := rfl
@[simp] theorem sendOnce_peer (image : List Byte) (id : Byte) (s : State) :
    (s.sendOnce image id).peer = s.peer := rfl
@[simp] theorem sendOnce_rxq (image : List Byte) (id : Byte) (s : State) :
    (s.sendOnce image id).rxq = s.rxq := rfl
@[simp] theorem sendOnce_rxqOut (image : List Byte) (id : Byte) (s : State) :
    (s.sendOnce image id).rxqOut = s.rxqOut := rfl
@[simp] theorem sendOnce_data (image : List Byte) (id : Byte) (s : State) :
    (s.sendOnce image id).data = s.data := rfl
@[simp] theorem sendOnce_crc (image : List Byte) (id : Byte) (s : State) :
    (s.sendOnce image id).crc = s.crc := rfl
@[simp] theorem sendOnce_wireTxLen (image : List Byte) (id : Byte) (s : State) :
    (s.sendOnce image id).wireTxLen = s.wireTxLen := rfl
@[simp] theorem sendOnce_dec (image : List Byte) (id : Byte) (s : State) :
    (s.sendOnce image id).dec = s.dec := rfl
@[simp] theorem sendOnce_cmdResult (image : List Byte) (id : Byte) (s : State) :
    (s.sendOnce image id).cmdResult = s.cmdResult := rfl
@[simp] theorem sendOnce_sendResult (image : List Byte) (id : Byte) (s : State) :
    (s.sendOnce image id).sendResult = ⟨if s.transmitAnswer then .sent else .txError, id, 1#8⟩ := rfl
@[simp] theorem sendOnce_tel (image : List Byte) (id : Byte) (s : State) :
    (s.sendOnce image id).tel = s.tel := rfl
@[simp] theorem sendOnce_mem (image : List Byte) (id : Byte) (s : State) :
    (s.sendOnce image id).mem = s.mem := rfl
@[simp] theorem sendOnce_trace (image : List Byte) (id : Byte) (s : State) :
    (s.sendOnce image id).trace = s.trace ++ [.transmitRaw image] ++ [.setMode .receive] := rfl
@[simp] theorem sendOnce_trx (image : List Byte) (id : Byte) (s : State) :
    (s.sendOnce image id).trx = { s.trx with transmits := s.trx.transmits.tail, answered := s.trx.answered ++ [.transmitRaw s.transmitAnswer] } := rfl
@[simp] theorem sendOnce_events (image : List Byte) (id : Byte) (s : State) :
    (s.sendOnce image id).events = s.events := rfl
@[simp] theorem sendOnce_busReply (image : List Byte) (id : Byte) (s : State) :
    (s.sendOnce image id).busReply = s.busReply := rfl

/-! ### emitAck -/

@[simp] theorem emitAck_cfg (a i : Byte) (s : State) : (s.emitAck a i).cfg = s.cfg := rfl
@[simp] theorem emitAck_conf (a i : Byte) (s : State) : (s.emitAck a i).conf = s.conf := rfl
@[simp] theorem emitAck_run (a i : Byte) (s : State) : (s.emitAck a i).run = s.run := rfl
@[simp] theorem emitAck_txSeq (a i : Byte) (s : State) : (s.emitAck a i).txSeq = s.txSeq := rfl
@[simp] theorem emitAck_pend (a i : Byte) (s : State) : (s.emitAck a i).pend = s.pend := rfl
@[simp] theorem emitAck_peer (a i : Byte) (s : State) : (s.emitAck a i).peer = s.peer := rfl
@[simp] theorem emitAck_rxq (a i : Byte) (s : State) : (s.emitAck a i).rxq = s.rxq := rfl
@[simp] theorem emitAck_rxqOut (a i : Byte) (s : State) : (s.emitAck a i).rxqOut = s.rxqOut := rfl
@[simp] theorem emitAck_data (a i : Byte) (s : State) : (s.emitAck a i).data = s.data := rfl
@[simp] theorem emitAck_crc (a i : Byte) (s : State) : (s.emitAck a i).crc = s.crc := rfl
@[simp] theorem emitAck_wireTxLen (a i : Byte) (s : State) : (s.emitAck a i).wireTxLen = s.wireTxLen := rfl
@[simp] theorem emitAck_dec (a i : Byte) (s : State) : (s.emitAck a i).dec = s.dec := rfl
@[simp] theorem emitAck_cmdResult (a i : Byte) (s : State) : (s.emitAck a i).cmdResult = s.cmdResult := rfl
@[simp] theorem emitAck_sendResult (a i : Byte) (s : State) :
    (s.emitAck a i).sendResult = s.sendResult := rfl
@[simp] theorem emitAck_tel (a i : Byte) (s : State) : (s.emitAck a i).tel = s.tel := rfl
@[simp] theorem emitAck_mem (a i : Byte) (s : State) : (s.emitAck a i).mem = s.mem := rfl
@[simp] theorem emitAck_trace (a i : Byte) (s : State) :
    (s.emitAck a i).trace = s.trace ++ [.transmitRaw (s.ackImage a i)] := rfl
@[simp] theorem emitAck_trx (a i : Byte) (s : State) :
    (s.emitAck a i).trx = { s.trx with transmits := s.trx.transmits.tail, answered := s.trx.answered ++ [.transmitRaw s.transmitAnswer] } := rfl
@[simp] theorem emitAck_events (a i : Byte) (s : State) : (s.emitAck a i).events = s.events := rfl
@[simp] theorem emitAck_busReply (a i : Byte) (s : State) : (s.emitAck a i).busReply = s.busReply := rfl

/-! ### storeBufferWord -/

@[simp] theorem storeBufferWord_cfg (b : Buffer) (m : Nat) (v : Word) (s : State) :
    (s.storeBufferWord b m v).cfg = s.cfg := rfl
@[simp] theorem storeBufferWord_conf (b : Buffer) (m : Nat) (v : Word) (s : State) :
    (s.storeBufferWord b m v).conf = s.conf := rfl
@[simp] theorem storeBufferWord_run (b : Buffer) (m : Nat) (v : Word) (s : State) :
    (s.storeBufferWord b m v).run = s.run := rfl
@[simp] theorem storeBufferWord_txSeq (b : Buffer) (m : Nat) (v : Word) (s : State) :
    (s.storeBufferWord b m v).txSeq = s.txSeq := rfl
@[simp] theorem storeBufferWord_pend (b : Buffer) (m : Nat) (v : Word) (s : State) :
    (s.storeBufferWord b m v).pend = s.pend := rfl
@[simp] theorem storeBufferWord_peer (b : Buffer) (m : Nat) (v : Word) (s : State) :
    (s.storeBufferWord b m v).peer = s.peer := rfl
@[simp] theorem storeBufferWord_rxq (b : Buffer) (m : Nat) (v : Word) (s : State) :
    (s.storeBufferWord b m v).rxq = s.rxq := rfl
@[simp] theorem storeBufferWord_rxqOut (b : Buffer) (m : Nat) (v : Word) (s : State) :
    (s.storeBufferWord b m v).rxqOut = s.rxqOut := rfl
@[simp] theorem storeBufferWord_data (b : Buffer) (m : Nat) (v : Word) (s : State) :
    (s.storeBufferWord b m v).data = s.data := rfl
@[simp] theorem storeBufferWord_crc (b : Buffer) (m : Nat) (v : Word) (s : State) :
    (s.storeBufferWord b m v).crc = s.crc := rfl
@[simp] theorem storeBufferWord_wireTxLen (b : Buffer) (m : Nat) (v : Word) (s : State) :
    (s.storeBufferWord b m v).wireTxLen = s.wireTxLen := rfl
@[simp] theorem storeBufferWord_dec (b : Buffer) (m : Nat) (v : Word) (s : State) :
    (s.storeBufferWord b m v).dec = s.dec := rfl
@[simp] theorem storeBufferWord_cmdResult (b : Buffer) (m : Nat) (v : Word) (s : State) :
    (s.storeBufferWord b m v).cmdResult = s.cmdResult := rfl
@[simp] theorem storeBufferWord_sendResult (b : Buffer) (m : Nat) (v : Word) (s : State) :
    (s.storeBufferWord b m v).sendResult = s.sendResult := rfl
@[simp] theorem storeBufferWord_tel (b : Buffer) (m : Nat) (v : Word) (s : State) :
    (s.storeBufferWord b m v).tel = s.tel := rfl
@[simp] theorem storeBufferWord_mem (b : Buffer) (m : Nat) (v : Word) (s : State) :
    (s.storeBufferWord b m v).mem = Memory.writeBytes s.mem (b.start + 4 * m) (lanesOfWord v) := rfl
@[simp] theorem storeBufferWord_trace (b : Buffer) (m : Nat) (v : Word) (s : State) :
    (s.storeBufferWord b m v).trace = s.trace := rfl
@[simp] theorem storeBufferWord_trx (b : Buffer) (m : Nat) (v : Word) (s : State) :
    (s.storeBufferWord b m v).trx = s.trx := rfl
@[simp] theorem storeBufferWord_events (b : Buffer) (m : Nat) (v : Word) (s : State) :
    (s.storeBufferWord b m v).events = s.events := rfl
@[simp] theorem storeBufferWord_busReply (b : Buffer) (m : Nat) (v : Word) (s : State) :
    (s.storeBufferWord b m v).busReply = s.busReply := rfl

/-! ### afterBusError -/

@[simp] theorem afterBusError_cfg (addr : Nat) (s : State) : (s.afterBusError addr).cfg = s.cfg := rfl
@[simp] theorem afterBusError_conf (addr : Nat) (s : State) : (s.afterBusError addr).conf = s.conf := rfl
@[simp] theorem afterBusError_run (addr : Nat) (s : State) : (s.afterBusError addr).run = s.run := rfl
@[simp] theorem afterBusError_txSeq (addr : Nat) (s : State) : (s.afterBusError addr).txSeq = s.txSeq := rfl
@[simp] theorem afterBusError_pend (addr : Nat) (s : State) : (s.afterBusError addr).pend = s.pend := rfl
@[simp] theorem afterBusError_peer (addr : Nat) (s : State) : (s.afterBusError addr).peer = s.peer := rfl
@[simp] theorem afterBusError_rxq (addr : Nat) (s : State) : (s.afterBusError addr).rxq = s.rxq := rfl
@[simp] theorem afterBusError_rxqOut (addr : Nat) (s : State) :
    (s.afterBusError addr).rxqOut = s.rxqOut := rfl
@[simp] theorem afterBusError_data (addr : Nat) (s : State) : (s.afterBusError addr).data = s.data := rfl
@[simp] theorem afterBusError_crc (addr : Nat) (s : State) : (s.afterBusError addr).crc = s.crc := rfl
@[simp] theorem afterBusError_wireTxLen (addr : Nat) (s : State) :
    (s.afterBusError addr).wireTxLen = s.wireTxLen := rfl
@[simp] theorem afterBusError_dec (addr : Nat) (s : State) : (s.afterBusError addr).dec = s.dec := rfl
@[simp] theorem afterBusError_cmdResult (addr : Nat) (s : State) :
    (s.afterBusError addr).cmdResult = s.cmdResult := rfl
@[simp] theorem afterBusError_sendResult (addr : Nat) (s : State) :
    (s.afterBusError addr).sendResult = s.sendResult := rfl
@[simp] theorem afterBusError_tel (addr : Nat) (s : State) : (s.afterBusError addr).tel = s.tel := rfl
@[simp] theorem afterBusError_mem (addr : Nat) (s : State) : (s.afterBusError addr).mem = s.mem := rfl
@[simp] theorem afterBusError_trace (addr : Nat) (s : State) : (s.afterBusError addr).trace = s.trace := rfl
@[simp] theorem afterBusError_trx (addr : Nat) (s : State) : (s.afterBusError addr).trx = s.trx := rfl
@[simp] theorem afterBusError_events (addr : Nat) (s : State) :
    (s.afterBusError addr).events = s.events := rfl
@[simp] theorem afterBusError_busReply (addr : Nat) (s : State) :
    (s.afterBusError addr).busReply = .error addr 0#32 := rfl

end Sys2Proof.Machine
end

