-- ==== Sys2Proof/Laws/Codec.lean ====
section
/-! SUPPORT. What the codec's functions do, once each. -/

namespace Sys2Proof.Machine

@[simp] theorem frameBody_length (a b c d : Byte) (payload : List Byte) :
    (frameBody a b c d payload).length = 5 + payload.length := by
  simp [frameBody]; omega

/-- The length of a wire image (30_encoding.md R121). -/
@[simp] theorem wireImage_length (p : Params) (sync : Half) (a b c d : Byte) (payload : List Byte) :
    (wireImage p sync a b c d payload).length = p.preambleLen + 9 + payload.length := by
  simp [wireImage]; omega

/-- An image the decoder accepts: what each check established, and the frame read from it (41_codec.md
R174). -/
theorem decodeFrame_eq_frame (p : Params) (sync : Half) (bytes : List Byte) (f : Frame)
    (h : decodeFrame p sync bytes = .frame f) :
    byteAt bytes p.preambleLen = highByte sync ∧ byteAt bytes (p.preambleLen + 1) = lowByte sync ∧
      f.len = byteAt bytes (p.preambleLen + 6) ∧ f.len.toNat ≤ p.maxPayload ∧
      bytes.length = p.preambleLen + 9 + f.len.toNat ∧
      crc16 p ((bytes.drop (p.preambleLen + 2)).take (5 + f.len.toNat)) =
        byteAt bytes (p.preambleLen + 8 + f.len.toNat) ++ byteAt bytes (p.preambleLen + 7 + f.len.toNat) ∧
      f.toAddr = byteAt bytes (p.preambleLen + 2) ∧ f.fromAddr = byteAt bytes (p.preambleLen + 3) ∧
      f.id = byteAt bytes (p.preambleLen + 4) ∧ f.flags = byteAt bytes (p.preambleLen + 5) ∧
      f.payload = (bytes.drop (p.preambleLen + 7)).take f.len.toNat := by
  unfold decodeFrame at h
  simp only at h
  split at h
  · exact absurd h (by simp)
  split at h
  · exact absurd h (by simp)
  split at h
  · exact absurd h (by simp)
  split at h
  · exact absurd h (by simp)
  split at h
  · exact absurd h (by simp)
  rename_i h1 h2 h3 h4 h5
  simp only [FrameResult.frame.injEq] at h
  subst h
  simp only [not_or, ne_eq, not_not] at h2 h4 h5
  refine ⟨h2.1, h2.2, rfl, by simp only; omega, by simp only; omega, h5, rfl, rfl, rfl, rfl, rfl⟩

/-- A decoded frame is well formed (30_encoding.md R120). -/
theorem decodeFrame_wellFormed (p : Params) (sync : Half) (bytes : List Byte) (f : Frame)
    (h : decodeFrame p sync bytes = .frame f) : f.wellFormed p.maxPayload := by
  obtain ⟨-, -, -, hmax, hlen, -, -, -, -, -, hpay⟩ := decodeFrame_eq_frame p sync bytes f h
  refine ⟨?_, hmax⟩
  rw [hpay, List.length_take, List.length_drop]
  omega

/-! ### An image by its parts -/

/-- The bytes of a 16-bit value put it together again. -/
theorem highByte_append_lowByte (c : Half) : highByte c ++ lowByte c = c := by
  apply BitVec.eq_of_getLsbD_eq
  intro i hi
  rw [BitVec.getLsbD_append]
  simp only [highByte, lowByte, BitVec.getLsbD_extractLsb']
  split_ifs with h
  · simp [h]
  · rw [show 8 + (i - 8) = i by omega, decide_eq_true (show i - 8 < 8 by omega), Bool.true_and]

/-- A wire image as preamble, sync word, body and trailer (30_encoding.md R121). -/
theorem wireImage_parts (p : Params) (sync : Half) (t f i g : Byte) (payload : List Byte) :
    wireImage p sync t f i g payload =
      List.replicate p.preambleLen p.preambleByte ++ ([highByte sync, lowByte sync] ++
        (([t, f, i, g, BitVec.ofNat 8 payload.length] ++ payload) ++
          [lowByte (crc16 p (frameBody t f i g payload)), highByte (crc16 p (frameBody t f i g payload))])) := by
  simp [wireImage, frameBody]

/-- The decoder on an image cut into preamble, sync word, header, payload and trailer (41_codec.md R174). -/
theorem decodeFrame_parts (p : Params) (sync : Half) (pre payload : List Byte) (a b t f i g l x y : Byte)
    (hpre : pre.length = p.preambleLen) :
    decodeFrame p sync (pre ++ ([a, b] ++ (([t, f, i, g, l] ++ payload) ++ [x, y]))) =
      if a ≠ highByte sync ∨ b ≠ lowByte sync then .error .invalidSync
      else if l.toNat > p.maxPayload ∨ payload.length ≠ l.toNat then .error .lengthMismatch
      else if crc16 p ([t, f, i, g, l] ++ payload) ≠ y ++ x then .error .crcMismatch
      else .frame ⟨t, f, i, g, l, payload⟩ := by
  obtain ⟨tail, htail⟩ : ∃ tail, tail = [a, b] ++ (([t, f, i, g, l] ++ payload) ++ [x, y]) := ⟨_, rfl⟩
  have hb : ∀ k, byteAt (pre ++ tail) (p.preambleLen + k) = byteAt tail k := by
    intro k
    simp only [byteAt, List.getD_eq_getElem?_getD]
    rw [List.getElem?_append_right (by omega), show p.preambleLen + k - pre.length = k by omega]
  have hd : ∀ k, (pre ++ tail).drop (p.preambleLen + k) = tail.drop k := by
    intro k
    rw [List.drop_append, List.drop_of_length_le (by omega), hpre]
    simp
  have hl : (pre ++ tail).length = p.preambleLen + 9 + payload.length := by
    simp [htail]; omega
  have hb0 := hb 0
  rw [Nat.add_zero] at hb0
  rw [← htail]
  unfold decodeFrame
  simp only [hl, hb, hd, hb0]
  rw [if_neg (by omega), show byteAt tail 0 = a from htail ▸ rfl, show byteAt tail 1 = b from htail ▸ rfl,
    show byteAt tail 6 = l from htail ▸ rfl]
  split
  · rfl
  rw [if_neg (by omega)]
  by_cases hlen : l.toNat > p.maxPayload ∨ payload.length ≠ l.toNat
  · rw [if_pos hlen, if_pos (by omega)]
  rw [if_neg hlen, if_neg (by omega)]
  have hpl : payload.length = l.toNat := by omega
  have hbody : (tail.drop 2).take (5 + l.toNat) = [t, f, i, g, l] ++ payload := by
    rw [htail]
    change (([t, f, i, g, l] ++ payload) ++ [x, y]).take (5 + l.toNat) = _
    rw [List.take_append_of_le_length (by simp; omega), List.take_of_length_le (by simp; omega)]
  have hpay : (tail.drop 7).take l.toNat = payload := by
    rw [htail]
    change (payload ++ [x, y]).take l.toNat = _
    rw [List.take_append_of_le_length (by omega), List.take_of_length_le (by omega)]
  have htrailer : ∀ k, byteAt tail (7 + k) = byteAt (payload ++ [x, y]) k := by
    intro k
    rw [htail, Nat.add_comm]
    rfl
  have hx : byteAt tail (7 + l.toNat) = x := by
    rw [htrailer, byteAt, List.getD_append_right _ _ _ _ (by omega), hpl]
    simp
  have hy : byteAt tail (8 + l.toNat) = y := by
    rw [show 8 + l.toNat = 7 + (l.toNat + 1) by omega, htrailer, byteAt,
      List.getD_append_right _ _ _ _ (by omega), hpl]
    simp
  rw [hbody, hpay, Nat.add_assoc, Nat.add_assoc, hb, hb, hx, hy,
    show byteAt tail 2 = t from htail ▸ rfl, show byteAt tail 3 = f from htail ▸ rfl,
    show byteAt tail 4 = i from htail ▸ rfl, show byteAt tail 5 = g from htail ▸ rfl]

/-- The running register over two messages in turn (40_crc.md R151). -/
theorem crc16Fold_append (c : Half) (xs ys : List Byte) :
    crc16Fold c (xs ++ ys) = crc16Fold (crc16Fold c xs) ys := by
  simp [crc16Fold]

end Sys2Proof.Machine
end

