-- ==== Sys2Proof/Laws/Decode.lean ====
section
/-! SUPPORT. What the decoder's table says, once: a word that a row matches has the row's opcode, and no word is
matched by two rows. -/

namespace Sys2Proof

/-- A row matches when the bits under its mask are its value (30_encoding.md R112). -/
theorem OpcodeRow.admits_iff (r : OpcodeRow) (w : Word) : r.admits w = true ↔ w &&& r.mask = r.value := by
  simp [OpcodeRow.admits]

/-- Every row's mask covers the whole OP field (30_encoding.md R114). -/
theorem opcodeTable_mask_op (r : OpcodeRow) (h : r ∈ opcodeTable) : opField r.mask = 0xFF#8 := by
  have key : opcodeTable.all (fun r => opField r.mask == 0xFF#8) = true := by decide
  simpa using List.all_eq_true.mp key r h

/-- A word that a row matches has the row's opcode. -/
theorem opField_of_admits (r : OpcodeRow) (w : Word) (hr : r ∈ opcodeTable) (h : r.admits w = true) :
    opField w = opField r.value := by
  rw [OpcodeRow.admits_iff] at h
  rw [← h]
  have hm := opcodeTable_mask_op r hr
  simp only [opField] at hm ⊢
  rw [BitVec.extractLsb'_and, hm]
  exact (BitVec.and_allOnes (x := w.extractLsb' 0 8)).symm

/-- The rows have different opcodes (30_encoding.md R114). -/
theorem opcodeTable_distinct :
    opcodeTable.Pairwise fun a b => opField a.value ≠ opField b.value := by
  have key : (opcodeTable.map fun r => opField r.value).Pairwise (· ≠ ·) := by decide
  exact List.pairwise_map.mp key

/-- No word is matched by two rows (30_encoding.md R112: the match sets are disjoint). -/
theorem opcodeTable_disjoint (w : Word) :
    opcodeTable.Pairwise fun a b => ¬ (a.admits w = true ∧ b.admits w = true) := by
  refine List.Pairwise.imp_of_mem ?_ opcodeTable_distinct
  rintro a b ha hb hne ⟨h1, h2⟩
  exact hne ((opField_of_admits a w ha h1).symm.trans (opField_of_admits b w hb h2))

/-- What the decoder answers: the command of a row that matches, or why no row does (30_encoding.md R112, R115). -/
theorem decode_cases (w : Word) :
    (∃ r ∈ opcodeTable, r.admits w = true ∧ decode w = .command (r.build (a8Field w) (b8Field w))) ∨
    ((∀ r ∈ opcodeTable, r.admits w = false) ∧ (∃ r ∈ opcodeTable, opField r.value = opField w) ∧
      decode w = .illegal .reservedBits) ∨
    ((∀ r ∈ opcodeTable, opField r.value ≠ opField w) ∧ decode w = .illegal .unassignedOp) := by
  unfold decode
  split
  · rename_i r hr
    exact Or.inl ⟨r, List.mem_of_find?_eq_some hr, by simpa using List.find?_some hr, rfl⟩
  · rename_i hn
    have hnone : ∀ r ∈ opcodeTable, r.admits w = false := by simpa using List.find?_eq_none.mp hn
    by_cases ha : opcodeTable.any (fun r => opField r.value == opField w) = true
    · rw [if_pos ha]
      obtain ⟨r, hr, he⟩ := List.any_eq_true.mp ha
      exact Or.inr (Or.inl ⟨hnone, ⟨r, hr, by simpa using he⟩, rfl⟩)
    · rw [if_neg ha]
      refine Or.inr (Or.inr ⟨fun r hr he => ha (List.any_eq_true.mpr ⟨r, hr, by simpa using he⟩), rfl⟩)

/-- Bit `i` of an assembled word (30_encoding.md R111). -/
theorem getLsbD_commandWord (op a8 b8 : Byte) (i : Nat) :
    (commandWord op a8 b8).getLsbD i =
      if i < 8 then op.getLsbD i
      else if i - 8 < 8 then a8.getLsbD (i - 8)
      else if i - 8 - 8 < 8 then b8.getLsbD (i - 8 - 8)
      else false := by
  change @BitVec.getLsbD (8 + 8 + 8 + 8) (0#8 ++ b8 ++ a8 ++ op) i = _
  rw [BitVec.getLsbD_append, BitVec.getLsbD_append, BitVec.getLsbD_append, BitVec.getLsbD_zero]

/-- The fields of an assembled word: its OP field. -/
@[simp] theorem opField_commandWord (op a8 b8 : Byte) : opField (commandWord op a8 b8) = op := by
  apply BitVec.eq_of_getLsbD_eq
  intro i hi
  simp only [opField, BitVec.getLsbD_extractLsb', getLsbD_commandWord, hi, decide_true, Bool.true_and]
  rw [if_pos (by omega), Nat.zero_add]

/-- The fields of an assembled word: its A8 field. -/
@[simp] theorem a8Field_commandWord (op a8 b8 : Byte) : a8Field (commandWord op a8 b8) = a8 := by
  apply BitVec.eq_of_getLsbD_eq
  intro i hi
  simp only [a8Field, BitVec.getLsbD_extractLsb', getLsbD_commandWord, hi, decide_true, Bool.true_and]
  rw [if_neg (by omega), if_pos (by omega), Nat.add_sub_cancel_left]

/-- The fields of an assembled word: its B8 field. -/
@[simp] theorem b8Field_commandWord (op a8 b8 : Byte) : b8Field (commandWord op a8 b8) = b8 := by
  apply BitVec.eq_of_getLsbD_eq
  intro i hi
  simp only [b8Field, BitVec.getLsbD_extractLsb', getLsbD_commandWord, hi, decide_true, Bool.true_and]
  rw [if_neg (by omega), if_neg (by omega), if_pos (by omega), show 16 + i - 8 - 8 = i by omega]

/-- Masking an assembled word masks its fields. -/
theorem commandWord_and (op a8 b8 mo ma mb : Byte) :
    commandWord op a8 b8 &&& (0xFF#8 ++ mb ++ ma ++ mo) = commandWord (op &&& mo) (a8 &&& ma) (b8 &&& mb) := by
  apply BitVec.eq_of_getLsbD_eq
  intro i hi
  rw [BitVec.getLsbD_and, getLsbD_commandWord, getLsbD_commandWord]
  change (_ && @BitVec.getLsbD (8 + 8 + 8 + 8) (0xFF#8 ++ mb ++ ma ++ mo) i) = _
  rw [BitVec.getLsbD_append, BitVec.getLsbD_append, BitVec.getLsbD_append]
  split_ifs <;> simp

end Sys2Proof
end

