-- ==== Sys2Proof/Laws/Memory.lean ====
section
/-! SUPPORT. The byte buffers: the basic laws of reading and writing, and that every memory operation keeps
the canonical form. -/

namespace Sys2Proof.Machine

/-! ### The canonical form -/

/-- An entry at the head of a canonical list is no zero byte and lies below every later entry. -/
theorem Memory.wf_cons (k : Nat) (v : Byte) (m : List Host.Cell) :
    Memory.wf ((k, v) :: m) = true ↔ v ≠ Memory.unlisted ∧ (∀ c ∈ m, k < c.1) ∧ Memory.wf m = true := by
  induction m generalizing k v with
  | nil => simp [Memory.wf]
  | cons c m ih =>
    obtain ⟨k', v'⟩ := c
    constructor
    · intro h
      simp only [Memory.wf, Bool.and_eq_true, decide_eq_true_eq] at h
      refine ⟨h.1.1, ?_, h.2⟩
      intro c hc
      rcases List.mem_cons.mp hc with rfl | hc
      · exact h.1.2
      · exact Nat.lt_trans h.1.2 (((ih k' v').mp h.2).2.1 c hc)
    · rintro ⟨hv, hk, hm⟩
      simp only [Memory.wf, Bool.and_eq_true, decide_eq_true_eq]
      exact ⟨⟨hv, hk (k', v') (by simp)⟩, hm⟩

@[simp] theorem Memory.wf_nil : Memory.wf [] = true := rfl

/-- The entries of a write are the old ones and, for a byte other than 0, the written one. -/
theorem Memory.mem_write (m : List Host.Cell) (a : Nat) (b : Byte) (c : Host.Cell)
    (h : c ∈ Memory.write m a b) : c ∈ m ∨ c = (a, b) := by
  induction m with
  | nil =>
    simp only [Memory.write] at h
    split at h
    · exact absurd h (by simp)
    · exact Or.inr (by simpa using h)
  | cons d m ih =>
    obtain ⟨k, v⟩ := d
    simp only [Memory.write] at h
    split at h
    · split at h
      · exact Or.inl h
      · rcases List.mem_cons.mp h with h | h
        · exact Or.inr h
        · exact Or.inl h
    · split at h
      · split at h
        · exact Or.inl (List.mem_cons_of_mem _ h)
        · rcases List.mem_cons.mp h with h | h
          · exact Or.inr h
          · exact Or.inl (List.mem_cons_of_mem _ h)
      · rcases List.mem_cons.mp h with h | h
        · exact Or.inl (h ▸ List.mem_cons_self)
        · rcases ih h with h | h
          · exact Or.inl (List.mem_cons_of_mem _ h)
          · exact Or.inr h

/-- A write keeps the canonical form. -/
theorem Memory.write_wf (m : List Host.Cell) (a : Nat) (b : Byte) (h : Memory.wf m = true) :
    Memory.wf (Memory.write m a b) = true := by
  induction m with
  | nil =>
    simp only [Memory.write]
    split
    · rfl
    · rename_i hb; simpa [Memory.wf] using hb
  | cons d m ih =>
    obtain ⟨k, v⟩ := d
    have hk := (Memory.wf_cons k v m).mp h
    simp only [Memory.write]
    split
    · rename_i hak
      split
      · exact h
      · rename_i hb
        refine (Memory.wf_cons a b _).mpr ⟨hb, ?_, h⟩
        intro c hc
        rcases List.mem_cons.mp hc with rfl | hc
        · exact hak
        · exact Nat.lt_trans hak (hk.2.1 c hc)
    · split
      · rename_i hak
        split
        · exact hk.2.2
        · rename_i hb
          exact (Memory.wf_cons a b m).mpr ⟨hb, hak ▸ hk.2.1, hk.2.2⟩
      · refine (Memory.wf_cons k v _).mpr ⟨hk.1, ?_, ih hk.2.2⟩
        intro c hc
        rcases Memory.mem_write m a b c hc with hc | rfl
        · exact hk.2.1 c hc
        · simp only; omega

/-- Storing several bytes keeps the canonical form. -/
theorem Memory.writeBytes_wf (bs : List Byte) (m : List Host.Cell) (a : Nat) (h : Memory.wf m = true) :
    Memory.wf (Memory.writeBytes m a bs) = true := by
  induction bs generalizing m a with
  | nil => exact h
  | cons b bs ih => exact ih _ _ (Memory.write_wf m a b h)

/-- Part of a canonical list, in order, is canonical. -/
theorem Memory.filter_wf (q : Host.Cell → Bool) (m : List Host.Cell) (h : Memory.wf m = true) :
    Memory.wf (m.filter q) = true := by
  induction m with
  | nil => rfl
  | cons d m ih =>
    obtain ⟨k, v⟩ := d
    have hk := (Memory.wf_cons k v m).mp h
    rw [List.filter_cons]
    split
    · exact (Memory.wf_cons k v _).mpr
        ⟨hk.1, fun c hc => hk.2.1 c (List.mem_filter.mp hc).1, ih hk.2.2⟩
    · exact ih hk.2.2

/-- Clearing keeps the canonical form. -/
theorem Memory.clear_wf (m : List Host.Cell) (a n : Nat) (h : Memory.wf m = true) :
    Memory.wf (Memory.clear m a n) = true :=
  Memory.filter_wf _ m h

/-- Filling a buffer keeps the canonical form. -/
theorem fillBuffer_wf (b : Buffer) (bytes : List Byte) (s : State) (h : Memory.wf s.mem = true) :
    Memory.wf (s.fillBuffer b bytes).mem = true :=
  Memory.clear_wf _ _ _ (Memory.writeBytes_wf _ _ _ h)

/-- Storing a bus word keeps the canonical form. -/
theorem storeBufferWord_wf (b : Buffer) (m : Nat) (v : Word) (s : State) (h : Memory.wf s.mem = true) :
    Memory.wf (s.storeBufferWord b m v).mem = true :=
  Memory.writeBytes_wf _ _ _ h

/-! ### Reading -/

/-- An offset that no entry lists reads as the reset contents. -/
theorem Memory.read_of_not_mem (m : List Host.Cell) (a : Nat) (h : ∀ c ∈ m, c.1 ≠ a) :
    Memory.read m a = Memory.unlisted := by
  induction m with
  | nil => rfl
  | cons d m ih =>
    obtain ⟨k, v⟩ := d
    simp only [Memory.read]
    rw [if_neg (h (k, v) (by simp))]
    exact ih fun c hc => h c (List.mem_cons_of_mem _ hc)

/-- A write leaves every other offset alone. -/
theorem Memory.read_write_of_ne (m : List Host.Cell) (a c : Nat) (b : Byte) (h : c ≠ a) :
    Memory.read (Memory.write m a b) c = Memory.read m c := by
  induction m with
  | nil =>
    simp only [Memory.write]
    split
    · rfl
    · simp [Memory.read, h.symm]
  | cons d m ih =>
    obtain ⟨k, v⟩ := d
    simp only [Memory.write]
    split
    · split
      · rfl
      · simp [Memory.read, h.symm]
    · split
      · rename_i hak
        subst hak
        split
        · simp [Memory.read, h.symm]
        · simp [Memory.read, h.symm]
      · simp only [Memory.read]
        split
        · rfl
        · exact ih

/-- A read after a write to the same offset gives the byte written. -/
theorem Memory.read_write_self (m : List Host.Cell) (a : Nat) (b : Byte) (h : Memory.wf m = true) :
    Memory.read (Memory.write m a b) a = b := by
  induction m with
  | nil =>
    simp only [Memory.write]
    split
    · rename_i hb; simp [Memory.read, hb]
    · simp [Memory.read]
  | cons d m ih =>
    obtain ⟨k, v⟩ := d
    have hk := (Memory.wf_cons k v m).mp h
    simp only [Memory.write]
    split
    · rename_i hak
      split
      · rename_i hb
        rw [hb]
        refine Memory.read_of_not_mem _ _ fun c hc => ?_
        rcases List.mem_cons.mp hc with rfl | hc
        · simp only; omega
        · have := hk.2.1 c hc; omega
      · simp [Memory.read]
    · split
      · rename_i hak
        split
        · rename_i hb
          rw [hb]
          refine Memory.read_of_not_mem _ _ fun c hc => ?_
          have := hk.2.1 c hc; omega
        · simp [Memory.read]
      · rename_i h1 h2
        simp only [Memory.read]
        rw [if_neg (fun e => h2 e.symm)]
        exact ih hk.2.2

/-- Storing several bytes leaves every offset outside them alone. -/
theorem Memory.read_writeBytes_outside (bs : List Byte) (m : List Host.Cell) (a c : Nat)
    (h : c < a ∨ a + bs.length ≤ c) : Memory.read (Memory.writeBytes m a bs) c = Memory.read m c := by
  induction bs generalizing m a with
  | nil => rfl
  | cons b bs ih =>
    simp only [Memory.writeBytes]
    rw [ih]
    · exact Memory.read_write_of_ne m a c b (by simp only [List.length_cons] at h; omega)
    · simp only [List.length_cons] at h; omega

/-- Byte `i` of the stored bytes is read back at its offset. -/
theorem Memory.read_writeBytes_inside (bs : List Byte) (m : List Host.Cell) (a i : Nat)
    (h : Memory.wf m = true) (hi : i < bs.length) :
    Memory.read (Memory.writeBytes m a bs) (a + i) = bs.getD i 0#8 := by
  induction bs generalizing m a i with
  | nil => exact absurd hi (by simp)
  | cons b bs ih =>
    simp only [Memory.writeBytes]
    cases i with
    | zero =>
      rw [Memory.read_writeBytes_outside _ _ _ _ (Or.inl (by omega))]
      simpa using Memory.read_write_self m a b h
    | succ i =>
      have := ih (Memory.write m a b) (a + 1) i (Memory.write_wf m a b h) (by simpa using hi)
      rw [show a + (i + 1) = a + 1 + i by omega, this]
      simp

/-- A cleared offset reads 0x00, and every other offset as before. -/
theorem Memory.read_clear (m : List Host.Cell) (a n c : Nat) :
    Memory.read (Memory.clear m a n) c = if a ≤ c ∧ c < a + n then 0x00#8 else Memory.read m c := by
  induction m with
  | nil => simp [Memory.clear, Memory.read, Memory.unlisted]
  | cons d m ih =>
    obtain ⟨k, v⟩ := d
    simp only [Memory.clear] at ih ⊢
    rw [List.filter_cons]
    by_cases hin : a ≤ k ∧ k < a + n
    · rw [if_neg (by simp [hin.1, hin.2]), ih]
      simp only [Memory.read]
      by_cases hc : k = c
      · subst hc; simp [hin]
      · simp [hc]
    · rw [if_pos (by simp; omega)]
      simp only [Memory.read]
      by_cases hc : k = c
      · subst hc; simp [hin]
      · simp only [hc, if_false]; exact ih

/-- What a filled buffer holds: the kept bytes, then 0x00; every offset outside the buffer as before. -/
theorem read_fillBuffer (b : Buffer) (bytes : List Byte) (s : State) (c : Nat) (h : Memory.wf s.mem = true) :
    Memory.read (s.fillBuffer b bytes).mem c =
      if b.start ≤ c ∧ c < b.start + b.size then (bytes.take b.size).getD (c - b.start) 0#8
      else Memory.read s.mem c := by
  have hl : (bytes.take b.size).length ≤ b.size := by simp
  rw [fillBuffer_mem, Memory.read_clear]
  by_cases hin : b.start ≤ c ∧ c < b.start + b.size
  · rw [if_pos hin]
    by_cases hk : c < b.start + (bytes.take b.size).length
    · rw [if_neg (by omega)]
      have := Memory.read_writeBytes_inside (bytes.take b.size) s.mem b.start (c - b.start) h (by omega)
      rwa [show b.start + (c - b.start) = c by omega] at this
    · rw [if_pos (by omega), List.getD_eq_default _ _ (by omega)]
  · rw [if_neg hin, if_neg (by omega)]
    exact Memory.read_writeBytes_outside _ _ _ _ (by omega)

/-- What a stored bus word changes: its four bytes. -/
theorem read_storeBufferWord_outside (b : Buffer) (m : Nat) (v : Word) (s : State) (c : Nat)
    (h : c < b.start + 4 * m ∨ b.start + 4 * m + 4 ≤ c) :
    Memory.read (s.storeBufferWord b m v).mem c = Memory.read s.mem c := by
  rw [storeBufferWord_mem]
  exact Memory.read_writeBytes_outside _ _ _ _ (by simpa [lanesOfWord] using h)

/-- How many bytes a read of several bytes gives. -/
@[simp] theorem Memory.readBytes_length (m : List Host.Cell) (a n : Nat) :
    (Memory.readBytes m a n).length = n := by
  simp [Memory.readBytes]

@[simp] theorem txPayload_length (s : State) : s.txPayload.length = s.data.txLen.toNat := by
  simp [State.txPayload, State.bufferBytes]

@[simp] theorem rxImage_length (s : State) : s.rxImage.length = s.data.rxLen.toNat := by
  simp [State.rxImage, State.bufferBytes]

/-- The entries of several stored bytes are old ones or lie among the stored offsets. -/
theorem Memory.mem_writeBytes (bs : List Byte) (m : List Host.Cell) (a : Nat) (c : Host.Cell)
    (h : c ∈ Memory.writeBytes m a bs) : c ∈ m ∨ (a ≤ c.1 ∧ c.1 < a + bs.length) := by
  induction bs generalizing m a with
  | nil => exact Or.inl h
  | cons b bs ih =>
    simp only [List.length_cons]
    rcases ih _ _ h with h | h
    · rcases Memory.mem_write m a b c h with h | rfl
      · exact Or.inl h
      · exact Or.inr (by simp only; omega)
    · exact Or.inr (by omega)

end Sys2Proof.Machine
end

