-- ==== Sys2Proof/Laws/Send.lean ====
section
/-! SUPPORT. What the operations of the retransmission engine do, once each. -/

namespace Sys2Proof.Machine

/-- A send command is accepted exactly when the block is running, no send is pending and the payload fits
(43_send.md R221, R224). -/
theorem sendRefusal_eq_none_iff (s : State) :
    s.sendRefusal = none ↔
      s.run.fatal = false ∧ s.run.stopped = false ∧ s.pend.state ≠ .awaitingAck ∧
        s.data.txLen.toNat ≤ s.cfg.maxPayload := by
  unfold State.sendRefusal
  cases hf : s.run.fatal <;> cases hs : s.run.stopped <;>
    by_cases ha : s.pend.state = .awaitingAck <;>
    by_cases hl : s.data.txLen.toNat ≤ s.cfg.maxPayload <;> simp [ha, hl]

/-- Why a send command is refused: the first of the three checks that fails (43_send.md R221, R224). -/
theorem sendRefusal_eq_some (s : State) (r : CmdResult) (h : s.sendRefusal = some r) :
    (r = .notRunning ∧ s.running = false) ∨
      (r = .busy ∧ s.running = true ∧ s.pend.state = .awaitingAck) ∨
      (r = .tooLong ∧ s.running = true ∧ s.pend.state ≠ .awaitingAck ∧ s.cfg.maxPayload < s.data.txLen.toNat) := by
  unfold State.sendRefusal at h
  unfold State.running
  cases hf : s.run.fatal <;> cases hs : s.run.stopped <;>
    by_cases ha : s.pend.state = .awaitingAck <;>
    by_cases hl : s.data.txLen.toNat > s.cfg.maxPayload <;> simp_all

/-- An encoded frame whose payload fits is its wire image (41_codec.md R170). -/
theorem encodedBytes_encodeFrame (p : Params) (sync : Half) (a b c d : Byte) (payload : List Byte)
    (h : payload.length ≤ p.maxPayload) :
    encodedBytes (encodeFrame p sync a b c d payload) = wireImage p sync a b c d payload := by
  rw [encodeFrame, if_neg (by omega), encodedBytes]

/-- The image of an accepted send (43_send.md R221, R224). -/
theorem sendImage_eq (s : State) (dest flags : Byte) (h : s.data.txLen.toNat ≤ s.cfg.maxPayload) :
    s.sendImage dest flags = wireImage s.cfg s.conf.sync dest s.conf.self s.txSeq flags s.txPayload :=
  encodedBytes_encodeFrame _ _ _ _ _ _ _ (by simpa using h)

/-- The image of an ACK: encoding an empty payload never fails (44_receive.md R269). -/
theorem ackImage_eq (s : State) (a i : Byte) :
    s.ackImage a i = wireImage s.cfg s.conf.sync a s.conf.self i 0x01#8 [] :=
  encodedBytes_encodeFrame _ _ _ _ _ _ _ (by simp)

/-- The first attempt of a reliable send (43_send.md R222). -/
theorem firstAttempt_eq (s : State) :
    s.firstAttempt =
      { s with
        pend := { s.pend with state := .awaitingAck, attempts := 1#8, remain := s.pend.timeout }
        sendResult := ⟨.pending, s.pend.id, 1#8⟩
        trace := s.trace ++ [.transmitRaw s.pend.image] ++ [.setMode .receive]
        trx := { s.trx with
          transmits := s.trx.transmits.tail, answered := s.trx.answered ++ [.transmitRaw s.transmitAnswer] } } :=
  rfl

/-- A retransmission (43_send.md R226). -/
theorem retransmit_eq (s : State) :
    s.retransmit =
      { s with
        pend := { s.pend with state := .awaitingAck, attempts := s.pend.attempts + 1, remain := s.pend.timeout }
        sendResult := { s.sendResult with attempts := s.pend.attempts + 1 }
        tel := { s.tel with retried := s.tel.retried + 1 }
        trace := s.trace ++ [.transmitRaw s.pend.image] ++ [.setMode .receive]
        trx := { s.trx with
          transmits := s.trx.transmits.tail, answered := s.trx.answered ++ [.transmitRaw s.transmitAnswer] } } :=
  rfl

/-- A send that has made all its attempts (43_send.md R227). -/
theorem failSend_eq (s : State) :
    s.failSend =
      { s with
        pend := { s.pend with state := .failed }
        sendResult := { s.sendResult with code := .failed }
        tel := { s.tel with failed := s.tel.failed + 1 } } :=
  rfl

/-- What an accepted SEND_RELIABLE does: one of three things (43_send.md R221). -/
theorem acceptReliable_cases (dest max : Byte) (s : State) :
    (dest = broadcast ∧
      s.acceptReliable dest max = (s.allocId.setResult .ok).sendOnce (s.sendImage dest 0x00#8) s.txSeq) ∨
    (dest ≠ broadcast ∧ max = 0#8 ∧
      s.acceptReliable dest max =
        (((s.allocId.setResult .ok).startPending dest s.txSeq max s.ackTimeout
          (s.sendImage dest 0x00#8)).countFailed).setSendResult .failed s.txSeq 0#8) ∨
    (dest ≠ broadcast ∧ max ≠ 0#8 ∧
      s.acceptReliable dest max =
        ((s.allocId.setResult .ok).startPending dest s.txSeq max s.ackTimeout
          (s.sendImage dest 0x00#8)).firstAttempt) := by
  by_cases hd : dest = broadcast
  · exact Or.inl ⟨hd, if_pos hd⟩
  · by_cases hm : max = 0#8
    · exact Or.inr (Or.inl ⟨hd, hm, (if_neg hd).trans (if_pos hm)⟩)
    · exact Or.inr (Or.inr ⟨hd, hm, (if_neg hd).trans (if_neg hm)⟩)

/-- What a timeout check does: one of three things (43_send.md R226). -/
theorem timeoutCheck_cases (s : State) :
    (s.pend.state = .awaitingAck ∧ s.pend.remain = 0#32 ∧ s.pend.attempts < s.pend.max ∧
      s.timeoutCheck = s.retransmit) ∨
    (s.pend.state = .awaitingAck ∧ s.pend.remain = 0#32 ∧ ¬ s.pend.attempts < s.pend.max ∧
      s.timeoutCheck = s.failSend) ∨
    (¬ (s.pend.state = .awaitingAck ∧ s.pend.remain = 0#32) ∧ s.timeoutCheck = s) := by
  unfold State.timeoutCheck
  by_cases h : s.pend.state = .awaitingAck ∧ s.pend.remain = 0#32
  · by_cases ha : s.pend.attempts < s.pend.max
    · exact Or.inl ⟨h.1, h.2, ha, by rw [if_pos h, if_pos ha]⟩
    · exact Or.inr (Or.inl ⟨h.1, h.2, ha, by rw [if_pos h, if_neg ha]⟩)
  · exact Or.inr (Or.inr ⟨h, if_neg h⟩)

/-- A timeout check touches the Pending Send, SEND_RESULT, the counters, the trace and the answers, and
nothing else. -/
theorem timeoutCheck_frame (s : State) :
    s.timeoutCheck =
      { s with
        pend := s.timeoutCheck.pend
        sendResult := s.timeoutCheck.sendResult
        tel := s.timeoutCheck.tel
        trace := s.timeoutCheck.trace
        trx := s.timeoutCheck.trx } := by
  rcases timeoutCheck_cases s with ⟨-, -, -, h⟩ | ⟨-, -, -, h⟩ | ⟨-, h⟩ <;> rw [h] <;> rfl

/-- A TICK counts P_REMAIN down or does nothing (43_send.md R225). -/
theorem tick_cases (s : State) :
    (s.pend.state = .awaitingAck ∧ 0#32 < s.pend.remain ∧
      s.tick = { s with pend := { s.pend with remain := s.pend.remain - 1 } }) ∨
    (¬ (s.pend.state = .awaitingAck ∧ 0#32 < s.pend.remain) ∧ s.tick = s) := by
  unfold State.tick
  by_cases h : s.pend.state = .awaitingAck ∧ 0#32 < s.pend.remain
  · exact Or.inl ⟨h.1, h.2, if_pos h⟩
  · exact Or.inr ⟨h, if_neg h⟩

end Sys2Proof.Machine
end

