-- ==== Sys2Proof/Laws/Receive.lean ====
section
/-! SUPPORT. What the operations of the receive engine and the polling loop do, once each. -/

namespace Sys2Proof.Machine

/-! ### The table PEER -/

/-- An entry after another was written (10_state.md R39). -/
theorem peerAt_setPeer (a b : Byte) (e : PeerEntry) (s : State) :
    (s.setPeer a e).peerAt b = if b = a then e else s.peerAt b := by
  simp only [State.peerAt, setPeer_peer, Vector.getElem_set]
  by_cases h : b = a
  · simp [h]
  · rw [if_neg h, if_neg]
    intro hn
    exact h (BitVec.eq_of_toNat_eq hn.symm)

@[simp] theorem peerAt_setPeer_self (a : Byte) (e : PeerEntry) (s : State) : (s.setPeer a e).peerAt a = e := by
  simp [peerAt_setPeer]

/-! ### The protocol step -/

/-- What recording a reading does (44_receive.md R264). -/
theorem noteRssi_eq (a : Byte) (rssi : Rssi) (s : State) :
    s.noteRssi a rssi =
      { s with
        tel := { s.tel with lastRssi := rssi, lastRssiValid := true }
        peer := s.peer.set a.toNat { s.peerAt a with rssi := rssi, rssiValid := true } } :=
  rfl

/-- A matching ACK resolves the pending send; any other changes nothing (44_receive.md R268). -/
theorem ackMatch_cases (f : Frame) (s : State) :
    (s.pend.state = .awaitingAck ∧ s.pend.dest = f.fromAddr ∧ s.pend.id = f.id ∧
      s.ackMatch f = (s.setPState .acked).setSendResult .acked s.pend.id s.pend.attempts) ∨
    (¬ (s.pend.state = .awaitingAck ∧ s.pend.dest = f.fromAddr ∧ s.pend.id = f.id) ∧ s.ackMatch f = s) := by
  unfold State.ackMatch
  by_cases h : s.pend.state = .awaitingAck ∧ s.pend.dest = f.fromAddr ∧ s.pend.id = f.id
  · exact Or.inl ⟨h.1, h.2.1, h.2.2, if_pos h⟩
  · exact Or.inr ⟨h, if_neg h⟩

/-- A fresh frame is queued and counted, or dropped and counted (44_receive.md R271). -/
theorem deliver_cases (f : Frame) (rssi : Rssi) (s : State) :
    (s.rxqCount < s.cfg.rxqDepth ∧
      s.deliver f rssi =
        { s with
          rxq := s.rxq ++ [⟨f.fromAddr, f.len, f.payload, rssi⟩]
          tel := { s.tel with delivered := s.tel.delivered + 1 } }) ∨
    (s.cfg.rxqDepth ≤ s.rxqCount ∧
      s.deliver f rssi = { s with tel := { s.tel with qdrop := s.tel.qdrop + 1 } }) := by
  unfold State.deliver
  by_cases h : s.rxqCount < s.cfg.rxqDepth
  · exact Or.inl ⟨h, if_pos h⟩
  · exact Or.inr ⟨by omega, if_neg h⟩

/-- Delivery touches the queue and the counters, and nothing else. -/
theorem deliver_frame (f : Frame) (rssi : Rssi) (s : State) :
    s.deliver f rssi = { s with rxq := (s.deliver f rssi).rxq, tel := (s.deliver f rssi).tel } := by
  rcases deliver_cases f rssi s with ⟨-, h⟩ | ⟨-, h⟩ <;> rw [h]

/-- What a fresh data frame does: it is delivered, and its sender's entry takes its `id` (44_receive.md
R265, R266). -/
theorem acceptFresh_eq (f : Frame) (rssi : Rssi) (s : State) :
    s.acceptFresh f rssi =
      { s with
        rxq := (s.deliver f rssi).rxq
        tel := (s.deliver f rssi).tel
        peer := s.peer.set f.fromAddr.toNat { s.peerAt f.fromAddr with lastId := f.id, idValid := true } } := by
  rcases deliver_cases f rssi s with ⟨-, h⟩ | ⟨-, h⟩ <;> simp only [State.acceptFresh, h] <;> rfl

/-- What the protocol step does with an accepted frame (44_receive.md R265). -/
theorem manage_cases (f : Frame) (rssi : Rssi) (s : State) :
    (ackFlag f.flags = true ∧ s.manage f rssi = s.ackMatch f) ∨
    (ackFlag f.flags = false ∧ s.isDuplicate f = true ∧ ackEligible f = true ∧
      s.manage f rssi = s.emitAck f.fromAddr f.id) ∨
    (ackFlag f.flags = false ∧ s.isDuplicate f = true ∧ ackEligible f = false ∧ s.manage f rssi = s) ∨
    (ackFlag f.flags = false ∧ s.isDuplicate f = false ∧ ackEligible f = true ∧
      s.manage f rssi = (s.acceptFresh f rssi).emitAck f.fromAddr f.id) ∨
    (ackFlag f.flags = false ∧ s.isDuplicate f = false ∧ ackEligible f = false ∧
      s.manage f rssi = s.acceptFresh f rssi) := by
  unfold State.manage
  cases ackFlag f.flags <;> cases s.isDuplicate f <;> cases ackEligible f <;> simp

/-- The protocol step touches the Pending Send, PEER, RXQ, SEND_RESULT, the counters, the trace and the
answers, and nothing else. -/
theorem manage_frame (f : Frame) (rssi : Rssi) (s : State) :
    s.manage f rssi =
      { s with
        pend := (s.manage f rssi).pend
        peer := (s.manage f rssi).peer
        rxq := (s.manage f rssi).rxq
        sendResult := (s.manage f rssi).sendResult
        tel := (s.manage f rssi).tel
        trace := (s.manage f rssi).trace
        trx := (s.manage f rssi).trx } := by
  rcases manage_cases f rssi s with ⟨-, h⟩ | ⟨-, -, -, h⟩ | ⟨-, -, -, h⟩ | ⟨-, -, -, h⟩ | ⟨-, -, -, h⟩ <;> rw [h]
  · rcases ackMatch_cases f s with ⟨-, -, -, h⟩ | ⟨-, h⟩ <;> (rw [h]; try rfl)
  · rfl
  · rw [acceptFresh_eq]; rfl
  · rw [acceptFresh_eq]

/-! ### One received image -/

/-- What a decoded or dropped image does (44_receive.md R263). -/
theorem rxOutcome_cases (r : FrameResult) (rssi : Rssi) (s : State) :
    (∃ e, r = .error e ∧ s.rxOutcome r rssi = s.countDrop e) ∨
    (∃ f, r = .frame f ∧ s.accepts f.toAddr = false ∧ s.rxOutcome r rssi = s) ∨
    (∃ f, r = .frame f ∧ s.accepts f.toAddr = true ∧
      s.rxOutcome r rssi = (s.noteRssi f.fromAddr rssi).manage f rssi) := by
  cases r with
  | error e => exact Or.inl ⟨e, rfl, rfl⟩
  | frame f =>
    by_cases h : s.accepts f.toAddr = true
    · exact Or.inr (Or.inr ⟨f, rfl, h, if_pos h⟩)
    · exact Or.inr (Or.inl ⟨f, rfl, by simpa using h, if_neg h⟩)

/-- A dropped image touches the counters only. -/
theorem countDrop_frame (e : DecodeError) (s : State) : s.countDrop e = { s with tel := (s.countDrop e).tel } := by
  cases e <;> rfl

/-- A received image touches the same pieces of state as the protocol step. -/
theorem rxProcess_frame (bytes : List Byte) (rssi : Rssi) (s : State) :
    s.rxProcess bytes rssi =
      { s with
        pend := (s.rxProcess bytes rssi).pend
        peer := (s.rxProcess bytes rssi).peer
        rxq := (s.rxProcess bytes rssi).rxq
        sendResult := (s.rxProcess bytes rssi).sendResult
        tel := (s.rxProcess bytes rssi).tel
        trace := (s.rxProcess bytes rssi).trace
        trx := (s.rxProcess bytes rssi).trx } := by
  unfold State.rxProcess
  rcases rxOutcome_cases (decodeFrame s.cfg s.conf.sync bytes) rssi s with
    ⟨e, -, h⟩ | ⟨f, -, -, h⟩ | ⟨f, -, -, h⟩ <;> rw [h]
  · cases e <;> rfl
  · rfl
  · rw [manage_frame]; rfl

/-! ### The polling loop -/

/-- What the receive step of an iteration does (44_receive.md R260, R262). -/
theorem poll_cases (s : State) :
    (s.readyAnswer = false ∧ s.poll = s.callFrameReady) ∨
    (s.readyAnswer = true ∧
      s.poll = s.callFrameReady.callReceiveRaw.rxProcess s.callFrameReady.receiveAnswer.1
        s.callFrameReady.receiveAnswer.2) := by
  unfold State.poll
  cases s.readyAnswer <;> simp

/-- The receive step touches the same pieces of state as the protocol step. -/
theorem poll_frame (s : State) :
    s.poll =
      { s with
        pend := s.poll.pend
        peer := s.poll.peer
        rxq := s.poll.rxq
        sendResult := s.poll.sendResult
        tel := s.poll.tel
        trace := s.poll.trace
        trx := s.poll.trx } := by
  rcases poll_cases s with ⟨-, h⟩ | ⟨-, h⟩ <;> rw [h]
  · rfl
  · rw [rxProcess_frame]; rfl

/-- What the protocol step may do to a pending send: it resolves it, or leaves it alone; it never counts a failure
(44_receive.md R265, R268). -/
theorem manage_pend (f : Frame) (rssi : Rssi) (s : State) :
    (s.manage f rssi).tel.failed = s.tel.failed ∧
      ((s.manage f rssi).pend = s.pend ∧ (s.manage f rssi).sendResult = s.sendResult ∨
        s.pend.state = .awaitingAck ∧ (s.manage f rssi).pend = { s.pend with state := .acked } ∧
          (s.manage f rssi).sendResult = ⟨.acked, s.pend.id, s.pend.attempts⟩) := by
  have hd : (s.deliver f rssi).tel.failed = s.tel.failed := by
    rcases deliver_cases f rssi s with ⟨-, h⟩ | ⟨-, h⟩ <;> rw [h]
  rcases manage_cases f rssi s with ⟨-, h⟩ | ⟨-, -, -, h⟩ | ⟨-, -, -, h⟩ | ⟨-, -, -, h⟩ | ⟨-, -, -, h⟩ <;> rw [h]
  · rcases ackMatch_cases f s with ⟨ha, -, -, h⟩ | ⟨-, h⟩ <;> rw [h]
    · exact ⟨rfl, Or.inr ⟨ha, rfl, rfl⟩⟩
    · exact ⟨rfl, Or.inl ⟨rfl, rfl⟩⟩
  · exact ⟨rfl, Or.inl ⟨rfl, rfl⟩⟩
  · exact ⟨rfl, Or.inl ⟨rfl, rfl⟩⟩
  · rw [acceptFresh_eq]; exact ⟨hd, Or.inl ⟨rfl, rfl⟩⟩
  · rw [acceptFresh_eq]; exact ⟨hd, Or.inl ⟨rfl, rfl⟩⟩

/-- What a received image may do to a pending send (44_receive.md R263, R268). -/
theorem rxProcess_pend (bytes : List Byte) (rssi : Rssi) (s : State) :
    (s.rxProcess bytes rssi).tel.failed = s.tel.failed ∧
      ((s.rxProcess bytes rssi).pend = s.pend ∧ (s.rxProcess bytes rssi).sendResult = s.sendResult ∨
        s.pend.state = .awaitingAck ∧ (s.rxProcess bytes rssi).pend = { s.pend with state := .acked } ∧
          (s.rxProcess bytes rssi).sendResult = ⟨.acked, s.pend.id, s.pend.attempts⟩) := by
  unfold State.rxProcess
  rcases rxOutcome_cases (decodeFrame s.cfg s.conf.sync bytes) rssi s with
    ⟨e, -, h⟩ | ⟨f, -, -, h⟩ | ⟨f, -, -, h⟩ <;> rw [h]
  · cases e <;> exact ⟨rfl, Or.inl ⟨rfl, rfl⟩⟩
  · exact ⟨rfl, Or.inl ⟨rfl, rfl⟩⟩
  · exact manage_pend f rssi (s.noteRssi f.fromAddr rssi)

/-- What the receive step of an iteration may do to a pending send (44_receive.md R260, R268). -/
theorem poll_pend (s : State) :
    s.poll.tel.failed = s.tel.failed ∧
      (s.poll.pend = s.pend ∧ s.poll.sendResult = s.sendResult ∨
        s.pend.state = .awaitingAck ∧ s.poll.pend = { s.pend with state := .acked } ∧
          s.poll.sendResult = ⟨.acked, s.pend.id, s.pend.attempts⟩) := by
  rcases poll_cases s with ⟨-, h⟩ | ⟨-, h⟩ <;> rw [h]
  · exact ⟨rfl, Or.inl ⟨rfl, rfl⟩⟩
  · exact rxProcess_pend _ _ s.callFrameReady.callReceiveRaw

/-- What an ITERATE does: nothing, the loop's exit, or a receive step and a timeout check (44_receive.md
R260). -/
theorem iterate_cases (s : State) :
    (s.running = false ∧ s.iterate = s) ∨
    (s.running = true ∧ s.run.stopReq = true ∧ s.pend.state ≠ .awaitingAck ∧ s.iterate = s.loopExit) ∨
    (s.running = true ∧ (s.run.stopReq = true → s.pend.state = .awaitingAck) ∧
      s.iterate = s.poll.timeoutCheck) := by
  unfold State.iterate State.running
  cases hf : s.run.fatal <;> cases hs : s.run.stopped <;> cases hr : s.run.stopReq <;>
    by_cases ha : s.pend.state = .awaitingAck <;> simp [ha]

/-- An ITERATE touches the run bits, the Pending Send, PEER, RXQ, SEND_RESULT, the telemetry, the trace and
the answers, and nothing else. -/
theorem iterate_frame (s : State) :
    s.iterate =
      { s with
        run := s.iterate.run
        pend := s.iterate.pend
        peer := s.iterate.peer
        rxq := s.iterate.rxq
        sendResult := s.iterate.sendResult
        tel := s.iterate.tel
        trace := s.iterate.trace
        trx := s.iterate.trx } := by
  rcases iterate_cases s with ⟨-, h⟩ | ⟨-, -, -, h⟩ | ⟨-, -, h⟩ <;> rw [h]
  · rfl
  · rw [timeoutCheck_frame, poll_frame]

/-- A cut reading has RSSI_W bits (00_scope.md R19). -/
theorem rssiDraw_lt (p : Params) (r : Rssi) : (rssiDraw p r).toNat < 2 ^ p.rssiW := by
  unfold rssiDraw
  rw [BitVec.toNat_ofNat]
  exact Nat.lt_of_le_of_lt (Nat.mod_le _ _) (Nat.mod_lt _ (by positivity))

/-- A received image has at most WIRE_BUF bytes (00_scope.md R19). -/
theorem receiveAnswer_length (s : State) : s.receiveAnswer.1.length ≤ wireBuf := by
  unfold State.receiveAnswer
  simp only [List.length_take]
  omega

end Sys2Proof.Machine
end

