-- ==== Sys2Proof/Laws/Step.lean ====
section
/-! SUPPORT. What the bus, the events and a step can do, once each. -/

namespace Sys2Proof.Machine

/-- CMD lies at offset 0 (20_memory.md R81). -/
@[simp] theorem locate_cmd (p : Params) : locate p p.blockBase 4 = .reg .cmd := by
  simp [locate, regAt, singleRegs]

/-- An access that reaches a register is 4 bytes wide and aligned, and its offset is mapped to that register
(20_memory.md R84). -/
theorem locate_eq_reg (p : Params) (addr size : Nat) (r : Reg) (h : locate p addr size = .reg r) :
    p.blockBase ≤ addr ∧ addr < p.blockBase + 4096 ∧ size = 4 ∧ (addr - p.blockBase) % 4 = 0 ∧
      regAt (addr - p.blockBase) = some r := by
  unfold locate at h
  split at h
  · exact absurd h (by simp)
  split at h
  · exact absurd h (by simp)
  split at h
  · exact absurd h (by simp)
  rename_i h1 h2 h3
  split at h
  · rename_i r' hr
    simp only [Located.reg.injEq] at h
    subst h
    exact ⟨by omega, by omega, by omega, by omega, hr⟩
  · exact absurd h (by simp)

/-- A read at the offset of a register answers its value and changes nothing else (20_memory.md R83, R84). -/
theorem hostRead_of_regAt (s : State) (off : Nat) (r : Reg) (h : regAt off = some r) (h4 : off % 4 = 0)
    (hl : off < 4096) :
    s.handle (.hostRead (s.cfg.blockBase + off) 4) = .next { s with busReply := .value (s.view r) } := by
  have hr : locate s.cfg (s.cfg.blockBase + off) 4 = .reg r := by
    unfold locate
    rw [if_neg (by omega), if_neg (by omega), Nat.add_sub_cancel_left, if_neg (by omega), h]
  simp only [State.handle, State.hostRead, hr]

/-- A buffer word of the map lies inside its buffer (20_memory.md R81, R86). -/
theorem regAt_bufferWord (off : Nat) (b : Buffer) (m : Nat) (h : regAt off = some (.bufferWord b m)) :
    0x800 ≤ off ∧ off < 0xE00 ∧ m = (off - b.start) / 4 ∧ b.start ≤ off ∧ off < b.start + b.size := by
  unfold regAt at h
  split at h
  · exfalso
    obtain ⟨e, he, heq⟩ := Option.map_eq_some_iff.mp h
    have hm := List.mem_of_find?_eq_some he
    have key : ∀ e ∈ singleRegs, ∀ b m, e.2 ≠ .bufferWord b m := by
      intro e he b m
      simp only [singleRegs, List.mem_cons, List.not_mem_nil, or_false] at he
      rcases he with rfl | rfl | rfl | rfl | rfl | rfl | rfl | rfl | rfl | rfl | rfl | rfl | rfl | rfl | rfl | rfl |
        rfl | rfl | rfl | rfl | rfl | rfl | rfl | rfl | rfl | rfl | rfl | rfl | rfl <;> simp
    exact key e hm b m heq
  split at h
  · exact absurd h (by simp)
  split at h
  · simp only [Option.some.injEq, Reg.bufferWord.injEq] at h
    obtain ⟨rfl, rfl⟩ := h
    exact ⟨by omega, by omega, rfl, by simp only [Buffer.start]; omega, by simp only [Buffer.start, Buffer.size]; omega⟩
  split at h
  · simp only [Option.some.injEq, Reg.bufferWord.injEq] at h
    obtain ⟨rfl, rfl⟩ := h
    exact ⟨by omega, by omega, rfl, by simp only [Buffer.start]; omega, by simp only [Buffer.start, Buffer.size]; omega⟩
  split at h
  · simp only [Option.some.injEq, Reg.bufferWord.injEq] at h
    obtain ⟨rfl, rfl⟩ := h
    exact ⟨by omega, by omega, rfl, by simp only [Buffer.start]; omega, by simp only [Buffer.start, Buffer.size, wireBuf]; omega⟩
  split at h
  · simp only [Option.some.injEq, Reg.bufferWord.injEq] at h
    obtain ⟨rfl, rfl⟩ := h
    exact ⟨by omega, by omega, rfl, by simp only [Buffer.start]; omega, by simp only [Buffer.start, Buffer.size, wireBuf]; omega⟩
  · exact absurd h (by simp)

/-- What a write to a register other than CMD stores: a data register, a word of an RW buffer, or nothing
(20_memory.md R83). -/
theorem storeReg_cases (r : Reg) (v : Word) (s : State) :
    (∃ d, s.storeReg r v = { s with data := d }) ∨
    (∃ b m, r = .bufferWord b m ∧ (b = .txBuf ∨ b = .wireRx) ∧ s.storeReg r v = s.storeBufferWord b m v) ∨
    (r.access ≠ .readWrite ∧ s.storeReg r v = s) := by
  cases r with
  | arg => exact Or.inl ⟨_, rfl⟩
  | txLen => exact Or.inl ⟨_, rfl⟩
  | hdr => exact Or.inl ⟨_, rfl⟩
  | rxLen => exact Or.inl ⟨_, rfl⟩
  | bufferWord b m =>
    cases b with
    | txBuf => exact Or.inr (Or.inl ⟨_, _, rfl, Or.inl rfl, rfl⟩)
    | wireRx => exact Or.inr (Or.inl ⟨_, _, rfl, Or.inr rfl, rfl⟩)
    | rxqData => exact Or.inr (Or.inr ⟨by simp [Reg.access], rfl⟩)
    | wireTx => exact Or.inr (Or.inr ⟨by simp [Reg.access], rfl⟩)
  | _ => exact Or.inr (Or.inr ⟨by simp [Reg.access], rfl⟩)

/-- What an event that answers a next state did (00_scope.md R20). -/
theorem handle_cases (e : Event) (s t : State) (h : s.handle e = .next t) :
    (∃ addr w i, e = .hostWrite addr 4 w ∧ locate s.cfg addr 4 = .reg .cmd ∧ decode w = .command i ∧
      exec i { s with busReply := .written } = .next t) ∨
    (∃ addr w why, e = .hostWrite addr 4 w ∧ locate s.cfg addr 4 = .reg .cmd ∧ decode w = .illegal why ∧
      t = { s with busReply := .written, cmdResult := .illegalCmd }) ∨
    (∃ addr w r, e = .hostWrite addr 4 w ∧ locate s.cfg addr 4 = .reg r ∧ r ≠ .cmd ∧
      t = ({ s with busReply := .written } : State).storeReg r w) ∨
    (∃ addr r, e = .hostRead addr 4 ∧ locate s.cfg addr 4 = .reg r ∧ t = { s with busReply := .value (s.view r) }) ∨
    (e = .tick ∧ t = s.tick) ∨ (e = .iterate ∧ t = s.iterate) ∨ (e = .reset ∧ t = s.resetEvent) := by
  cases e with
  | hostWrite addr size w =>
    simp only [State.handle, State.hostWrite] at h
    split at h
    · exact absurd h (by simp)
    · rename_i r hr
      obtain rfl : size = 4 := (locate_eq_reg _ _ _ _ hr).2.2.1
      split at h
      · rename_i hc
        subst hc
        simp only [State.executeCommand] at h
        split at h
        · rename_i i hi
          exact Or.inl ⟨addr, w, i, rfl, hr, hi, h⟩
        · rename_i why hw
          simp only [Host.Outcome.next.injEq] at h
          exact Or.inr (Or.inl ⟨addr, w, why, rfl, hr, hw, h.symm⟩)
      · rename_i hc
        simp only [Host.Outcome.next.injEq] at h
        exact Or.inr (Or.inr (Or.inl ⟨addr, w, r, rfl, hr, hc, h.symm⟩))
  | hostRead addr size =>
    simp only [State.handle, State.hostRead] at h
    split at h
    · rename_i r hr
      obtain rfl : size = 4 := (locate_eq_reg _ _ _ _ hr).2.2.1
      simp only [Host.Outcome.next.injEq] at h
      exact Or.inr (Or.inr (Or.inr (Or.inl ⟨addr, r, rfl, hr, h.symm⟩)))
    · exact absurd h (by simp)
  | tick =>
    simp only [State.handle, Host.Outcome.next.injEq] at h
    exact Or.inr (Or.inr (Or.inr (Or.inr (Or.inl ⟨rfl, h.symm⟩))))
  | iterate =>
    simp only [State.handle, Host.Outcome.next.injEq] at h
    exact Or.inr (Or.inr (Or.inr (Or.inr (Or.inr (Or.inl ⟨rfl, h.symm⟩)))))
  | reset =>
    simp only [State.handle, Host.Outcome.next.injEq] at h
    exact Or.inr (Or.inr (Or.inr (Or.inr (Or.inr (Or.inr ⟨rfl, h.symm⟩)))))

/-- What a step that answers a next state did: nothing was placed, or the oldest event was processed. -/
theorem step_cases (s t : State) (h : step s = .next t) :
    (s.events = [] ∧ t = s) ∨
    (∃ e rest, s.events = e :: rest ∧ ({ s with events := rest } : State).handle e = .next t) := by
  simp only [step, State.takeEvent] at h
  split at h
  · rename_i he
    simp only [Host.Outcome.next.injEq] at h
    exact Or.inl ⟨he, h.symm⟩
  · rename_i e rest he
    exact Or.inr ⟨e, rest, he, h⟩

/-- A RESET whose `TRX.init()` returns true (70_reset_and_hazards.md R350). -/
theorem resetEvent_of_init (s : State) (h : s.initAnswer = true) :
    s.resetEvent =
      { State.cleared s.cfg with
        trace := s.trace ++ [.init] ++ [.setAddress s.cfg.selfReset false] ++ [.setMode .receive]
        trx := { s.trx with inits := s.trx.inits.tail, answered := s.trx.answered ++ [.init true] }
        events := s.events
        busReply := s.busReply } := by
  have hc : s.clearRegisters.initAnswer = true := h
  simp only [State.resetEvent, if_pos hc]
  simp only [State.callInit, hc]
  rfl

/-- A RESET whose `TRX.init()` returns false (70_reset_and_hazards.md R351). -/
theorem resetEvent_of_not_init (s : State) (h : s.initAnswer = false) :
    s.resetEvent =
      { State.cleared s.cfg with
        run := ⟨true, false, false⟩
        trace := s.trace ++ [.init]
        trx := { s.trx with inits := s.trx.inits.tail, answered := s.trx.answered ++ [.init false] }
        events := s.events
        busReply := s.busReply } := by
  have hc : s.clearRegisters.initAnswer = false := h
  simp only [State.resetEvent, hc]
  simp only [State.callInit, hc]
  rfl

end Sys2Proof.Machine
end

