-- ==== Sys2Proof/Laws/Exec.lean ====
section
/-! SUPPORT. What every command does and leaves alone, once each. -/

namespace Sys2Proof.Machine

/-- Every command answers a next state: an error is a value of CMD_RESULT (60_exceptions.md R320, R328). -/
theorem exec_next (i : Instr) (s : State) : ∃ t, exec i s = .next t := by
  cases i with
  | nop => exact ⟨_, rfl⟩
  | crcInit => exact ⟨_, rfl⟩
  | crcByte byte => exact ⟨_, rfl⟩
  | crcCheck => exact ⟨_, rfl⟩
  | setSync => exact ⟨_, rfl⟩
  | stop => exact ⟨_, rfl⟩
  | setAddr self promiscuous => simp only [exec, execSetAddr]; split <;> exact ⟨_, rfl⟩
  | encode => simp only [exec, execEncode]; split <;> exact ⟨_, rfl⟩
  | decode => simp only [exec, execDecode]; split <;> exact ⟨_, rfl⟩
  | filter => simp only [exec, execFilter]; split <;> exact ⟨_, rfl⟩
  | sendReliable dest maxRetries => simp only [exec, execSendReliable]; split <;> exact ⟨_, rfl⟩
  | sendUnreliable dest => simp only [exec, execSendUnreliable]; split <;> exact ⟨_, rfl⟩
  | rxqPop => simp only [exec, execRxqPop]; split <;> exact ⟨_, rfl⟩

/-- An accepted SEND_RELIABLE takes the next `id` and leaves the parameters, PEER, the queue, the data registers, the
CRC unit, the codec's results, the buffers, the events to come and the bus reply alone (43_send.md R221 to R223). -/
theorem acceptReliable_frame (dest maxRetries : Byte) (s : State) :
    s.acceptReliable dest maxRetries =
      { s with
        txSeq := s.txSeq + 1
        pend := (s.acceptReliable dest maxRetries).pend
        cmdResult := .ok
        sendResult := (s.acceptReliable dest maxRetries).sendResult
        tel := (s.acceptReliable dest maxRetries).tel
        trace := (s.acceptReliable dest maxRetries).trace
        trx := (s.acceptReliable dest maxRetries).trx } := by
  rcases acceptReliable_cases dest maxRetries s with ⟨-, h⟩ | ⟨-, -, h⟩ | ⟨-, -, h⟩ <;> rw [h]
  · rfl
  · rfl
  · rw [firstAttempt_eq]; rfl

/-- No command touches the parameters, PEER, the data registers, the events to come or the bus reply. -/
theorem exec_frame (i : Instr) (s t : State) (h : exec i s = .next t) :
    t.cfg = s.cfg ∧ t.peer = s.peer ∧ t.data = s.data ∧ t.events = s.events ∧ t.busReply = s.busReply := by
  cases i with
  | nop => cases h; exact ⟨rfl, rfl, rfl, rfl, rfl⟩
  | crcInit => cases h; exact ⟨rfl, rfl, rfl, rfl, rfl⟩
  | crcByte byte => cases h; exact ⟨rfl, rfl, rfl, rfl, rfl⟩
  | crcCheck => cases h; exact ⟨rfl, rfl, rfl, rfl, rfl⟩
  | setSync => cases h; exact ⟨rfl, rfl, rfl, rfl, rfl⟩
  | stop => cases h; exact ⟨rfl, rfl, rfl, rfl, rfl⟩
  | setAddr self promiscuous =>
    simp only [exec, execSetAddr] at h; split at h <;> cases h <;> exact ⟨rfl, rfl, rfl, rfl, rfl⟩
  | encode => simp only [exec, execEncode] at h; split at h <;> cases h <;> exact ⟨rfl, rfl, rfl, rfl, rfl⟩
  | decode => simp only [exec, execDecode] at h; split at h <;> (cases h; exact ⟨rfl, rfl, rfl, rfl, rfl⟩)
  | filter => simp only [exec, execFilter] at h; split at h <;> cases h <;> exact ⟨rfl, rfl, rfl, rfl, rfl⟩
  | sendReliable dest maxRetries =>
    simp only [exec, execSendReliable] at h
    split at h <;> cases h
    · exact ⟨rfl, rfl, rfl, rfl, rfl⟩
    · rw [acceptReliable_frame]; exact ⟨rfl, rfl, rfl, rfl, rfl⟩
  | sendUnreliable dest =>
    simp only [exec, execSendUnreliable] at h; split at h <;> cases h <;> exact ⟨rfl, rfl, rfl, rfl, rfl⟩
  | rxqPop => simp only [exec, execRxqPop] at h; split at h <;> cases h <;> exact ⟨rfl, rfl, rfl, rfl, rfl⟩

/-- No command but an accepted SEND_RELIABLE touches the Pending Send (43_send.md R231). -/
theorem exec_pend (i : Instr) (s t : State) (h : exec i s = .next t) :
    t.pend = s.pend ∨
      ∃ dest maxRetries, i = .sendReliable dest maxRetries ∧ s.sendRefusal = none ∧
        t = s.acceptReliable dest maxRetries := by
  cases i with
  | nop => cases h; exact Or.inl rfl
  | crcInit => cases h; exact Or.inl rfl
  | crcByte byte => cases h; exact Or.inl rfl
  | crcCheck => cases h; exact Or.inl rfl
  | setSync => cases h; exact Or.inl rfl
  | stop => cases h; exact Or.inl rfl
  | setAddr self promiscuous => simp only [exec, execSetAddr] at h; split at h <;> cases h <;> exact Or.inl rfl
  | encode => simp only [exec, execEncode] at h; split at h <;> cases h <;> exact Or.inl rfl
  | decode => simp only [exec, execDecode] at h; split at h <;> (cases h; exact Or.inl rfl)
  | filter => simp only [exec, execFilter] at h; split at h <;> cases h <;> exact Or.inl rfl
  | sendReliable dest maxRetries =>
    simp only [exec, execSendReliable] at h
    split at h <;> cases h
    · exact Or.inl rfl
    · rename_i hr; exact Or.inr ⟨_, _, rfl, hr, rfl⟩
  | sendUnreliable dest => simp only [exec, execSendUnreliable] at h; split at h <;> cases h <;> exact Or.inl rfl
  | rxqPop => simp only [exec, execRxqPop] at h; split at h <;> cases h <;> exact Or.inl rfl

/-- A register write touches the data registers and the buffers, and nothing else (20_memory.md R83). -/
theorem storeReg_frame (r : Reg) (v : Word) (s : State) :
    s.storeReg r v = { s with data := (s.storeReg r v).data, mem := (s.storeReg r v).mem } := by
  rcases storeReg_cases r v s with ⟨d, h⟩ | ⟨b, m, -, -, h⟩ | ⟨-, h⟩
  · rw [h]
  · rw [h]; rfl
  · rw [h]

/-- The block runs when FATAL and STOPPED are clear (10_state.md R34). -/
theorem running_iff (s : State) : s.running = true ↔ s.run.fatal = false ∧ s.run.stopped = false := by
  simp [State.running]

end Sys2Proof.Machine
end

