-- ==== Sys2Proof/Laws/Invariant.lean ====
section
/-! SUPPORT. What the words of the statements mean: the fields the invariant speaks of, what a heard image does, when a
pending send is resolved, and which states agree but for telemetry. -/

namespace Sys2Proof.Machine

/-- The invariant speaks of these fields only: a state with the same ones has it too. -/
theorem Inv_of_same_fields (s t : State) (h : Inv s) (cfg : t.cfg = s.cfg) (mem : t.mem = s.mem)
    (pend : t.pend = s.pend) (sendResult : t.sendResult = s.sendResult) (rxq : t.rxq = s.rxq)
    (peer : t.peer = s.peer) (lastRssi : t.tel.lastRssi = s.tel.lastRssi)
    (outRssi : t.rxqOut.rssi = s.rxqOut.rssi) (run : t.run = s.run) (wireTxLen : t.wireTxLen = s.wireTxLen)
    (dec : t.dec = s.dec) : Inv t := by
  have hp : ∀ a, t.peerAt a = s.peerAt a := by
    intro a
    unfold State.peerAt
    simp only [peer]
  constructor
  · rw [cfg]; exact h.params
  · rw [mem]; exact h.canonical
  · rw [mem]; exact h.inBuffers
  · rw [pend]; exact h.notTransient
  · rw [pend]; exact h.attempts
  · rw [pend, sendResult]; exact h.awaiting
  · rw [pend, sendResult]; exact h.pendingIffBusy
  · rw [pend, cfg]; exact h.timeoutWidth
  · rw [pend]; exact h.remainBound
  · rw [pend]; exact h.imageBound
  · unfold State.rxqCount; rw [rxq, cfg]; exact h.queueBound
  · rw [rxq, cfg]; exact h.records
  · simp only [hp, lastRssi, outRssi, cfg]; exact h.readings
  · rw [run, pend]; exact h.stopped
  · rw [run, pend]; exact h.fatal
  · rw [wireTxLen]; exact h.wireTxBound
  · rw [dec]; exact h.decoded
  · rw [dec]; exact h.verdict

/-- The poll and the iteration that hear an image (44_receive.md R260, R263). -/
theorem poll_of_hears (s : State) (r : FrameResult) (rssi : Rssi) (h : s.hears r rssi) :
    s.poll = (s.tookImage.rxOutcome r rssi).callSetMode .receive ∧ s.iterate = s.poll.timeoutCheck := by
  obtain ⟨hrun, hstop, hready, hr, hrssi⟩ := h
  constructor
  · have hd : decodeFrame s.callFrameReady.callReceiveRaw.cfg s.callFrameReady.callReceiveRaw.conf.sync
        s.callFrameReady.receiveAnswer.1 = r := hr
    unfold State.poll
    simp only [hready, if_true]
    unfold State.rxProcess
    rw [hd, hrssi]
    rfl
  · rcases iterate_cases s with ⟨hn, -⟩ | ⟨-, hs, hp, -⟩ | ⟨-, -, hi⟩
    · exact absurd (hn.symm.trans hrun) (by decide)
    · exact absurd (hstop hs) hp
    · exact hi

/-- The protocol step changes the Pending Send only for an ACK frame with its key (44_receive.md R265, R268). -/
theorem manage_pend_changed (f : Frame) (rssi : Rssi) (s : State) (h : (s.manage f rssi).pend ≠ s.pend) :
    f.flags.getLsbD 0 = true ∧ f.fromAddr = s.pend.dest ∧ f.id = s.pend.id := by
  rcases manage_cases f rssi s with ⟨hf, hm⟩ | ⟨-, -, -, hm⟩ | ⟨-, -, -, hm⟩ | ⟨-, -, -, hm⟩ | ⟨-, -, -, hm⟩ <;>
    rw [hm] at h
  · rcases ackMatch_cases f s with ⟨-, hd, hi, -⟩ | ⟨-, ha⟩
    · exact ⟨hf, hd.symm, hi.symm⟩
    · rw [ha] at h; exact absurd rfl h
  · exact absurd rfl h
  · exact absurd rfl h
  · rw [acceptFresh_eq] at h; exact absurd rfl h
  · rw [acceptFresh_eq] at h; exact absurd rfl h

/-- An image changes the Pending Send only when it is an accepted ACK frame with its key (44_receive.md R263, R268). -/
theorem rxOutcome_pend_changed (r : FrameResult) (rssi : Rssi) (s : State) (h : (s.rxOutcome r rssi).pend ≠ s.pend) :
    ∃ f, r = .frame f ∧ s.accepts f.toAddr = true ∧ f.flags.getLsbD 0 = true ∧ f.fromAddr = s.pend.dest ∧
      f.id = s.pend.id := by
  rcases rxOutcome_cases r rssi s with ⟨e, -, ho⟩ | ⟨f, -, -, ho⟩ | ⟨f, hr, ha, ho⟩ <;> rw [ho] at h
  · rw [countDrop_frame] at h; exact absurd rfl h
  · exact absurd rfl h
  · exact ⟨f, hr, ha, manage_pend_changed f rssi (s.noteRssi f.fromAddr rssi) h⟩

/-- A poll that does not hear the pending send's ACK leaves the Pending Send as it is (43_send.md R228). -/
theorem poll_pend_of_not_hearsItsAck (s : State) (hrun : s.running = true)
    (hstop : s.run.stopReq = true → s.pend.state = .awaitingAck) (hn : ¬ s.hearsItsAck) : s.poll.pend = s.pend := by
  rcases poll_cases s with ⟨-, h⟩ | ⟨hready, -⟩
  · rw [h]; rfl
  · have hears : s.hears (decodeFrame s.cfg s.conf.sync s.callFrameReady.receiveAnswer.1)
        s.callFrameReady.receiveAnswer.2 := ⟨hrun, hstop, hready, rfl, rfl⟩
    by_contra hp
    rw [(poll_of_hears s _ _ hears).1] at hp
    obtain ⟨f, hr, ha, hf, hd, hi⟩ := rxOutcome_pend_changed _ _ s.tookImage hp
    rw [hr] at hears
    exact hn ⟨f, _, hears, ha, hf, hd, hi⟩

/-- A poll that hears the pending send's ACK resolves the send (43_send.md R228; 44_receive.md R268). -/
theorem poll_of_hearsItsAck (s : State) (ha : s.pend.state = .awaitingAck) (h : s.hearsItsAck) :
    s.poll.pend = { s.pend with state := .acked } ∧ s.poll.sendResult = ⟨.acked, s.pend.id, s.pend.attempts⟩ := by
  obtain ⟨f, rssi, hears, hacc, hf, hd, hi⟩ := h
  rw [(poll_of_hears s _ _ hears).1]
  have ho : s.tookImage.rxOutcome (.frame f) rssi = (s.tookImage.noteRssi f.fromAddr rssi).ackMatch f :=
    (if_pos hacc).trans (if_pos hf)
  rw [ho]
  rcases ackMatch_cases f (s.tookImage.noteRssi f.fromAddr rssi) with ⟨-, -, -, hm⟩ | ⟨hk, -⟩
  · rw [hm]; exact ⟨rfl, rfl⟩
  · exact absurd ⟨ha, hd.symm, hi.symm⟩ hk

/-- Two states agree but for the telemetry registers when one is the other with other counters and readings
(10_state.md R45). -/
theorem withoutTelemetry_eq_iff (s t : State) :
    t.withoutTelemetry = s.withoutTelemetry ↔
      ∃ d q, t = { s with tel := d, peer := q } ∧
        q.map PeerEntry.withoutReading = s.peer.map PeerEntry.withoutReading := by
  constructor
  · intro h
    refine ⟨t.tel, t.peer, ?_, congrArg State.peer h⟩
    cases s
    cases t
    simp only [State.withoutTelemetry, State.mk.injEq] at h ⊢
    simp_all
  · rintro ⟨d, q, rfl, h⟩
    simp [State.withoutTelemetry, h]

/-- Noting a reading changes telemetry registers only (44_receive.md R264). -/
theorem noteRssi_withoutTelemetry (a : Byte) (rssi : Rssi) (s : State) :
    (s.noteRssi a rssi).withoutTelemetry = s.withoutTelemetry := by
  rw [withoutTelemetry_eq_iff, noteRssi_eq]
  refine ⟨_, _, rfl, ?_⟩
  apply Vector.ext
  intro i hi
  simp only [Vector.getElem_map, Vector.getElem_set, State.peerAt]
  split
  · rename_i h; subst h; rfl
  · rfl

/-- The last accepted ids are no telemetry (10_state.md R39, R45). -/
theorem peerAt_of_withoutTelemetry (s t : State) (h : t.withoutTelemetry = s.withoutTelemetry) (a : Byte) :
    (t.peerAt a).idValid = (s.peerAt a).idValid ∧ (t.peerAt a).lastId = (s.peerAt a).lastId := by
  have ha := congrArg (fun u => State.peerAt u a) h
  simp only [State.peerAt, State.withoutTelemetry, Vector.getElem_map, PeerEntry.withoutReading,
    PeerEntry.mk.injEq] at ha
  exact ⟨ha.1, ha.2.1⟩

end Sys2Proof.Machine
end

