-- ==== Sys2Proof/Laws/PerInstr.lean ====
section
/-! SUPPORT. One lemma per command: a well-formed command's word is matched by the row of the opcode map that has
the command's mnemonic (spec/30_encoding.md R111, R112, R114). -/

namespace Sys2Proof.Laws.EncodeFitsRow

/-- The command's word is matched by the row of its mnemonic. -/
def Statement (i : Instr) : Prop :=
  i.wellFormed = true → ∃ r ∈ opcodeTable, r.mnemonic = i.mnemonic ∧ r.admits (encode i) = true

/-- NOP. -/
theorem nop : Statement .nop := fun _ => ⟨opcodeTable[0], List.getElem_mem _, rfl, by decide⟩

/-- CRC_INIT. -/
theorem crcInit : Statement .crcInit := fun _ => ⟨opcodeTable[1], List.getElem_mem _, rfl, by decide⟩

/-- CRC_BYTE byte. -/
theorem crcByte (byte : Byte) : Statement (.crcByte byte) := fun _ => by
  refine ⟨opcodeTable[2], List.getElem_mem _, rfl, (OpcodeRow.admits_iff _ _).mpr ?_⟩
  refine (commandWord_and 0x02#8 byte 0#8 0xFF#8 0x00#8 0xFF#8).trans ?_
  rw [BitVec.and_zero]
  rfl

/-- CRC_CHECK. -/
theorem crcCheck : Statement .crcCheck := fun _ => ⟨opcodeTable[3], List.getElem_mem _, rfl, by decide⟩

/-- SET_ADDR self, promiscuous. -/
theorem setAddr (self : Byte) (promiscuous : Bool) : Statement (.setAddr self promiscuous) := fun _ => by
  refine ⟨opcodeTable[4], List.getElem_mem _, rfl, (OpcodeRow.admits_iff _ _).mpr ?_⟩
  refine (commandWord_and 0x10#8 self (0#7 ++ BitVec.ofBool promiscuous) 0xFF#8 0x00#8 0xFE#8).trans ?_
  rw [BitVec.and_zero]
  cases promiscuous <;> rfl

/-- SET_SYNC. -/
theorem setSync : Statement .setSync := fun _ => ⟨opcodeTable[5], List.getElem_mem _, rfl, by decide⟩

/-- ENCODE. -/
theorem encode : Statement .encode := fun _ => ⟨opcodeTable[6], List.getElem_mem _, rfl, by decide⟩

/-- DECODE. -/
theorem decode : Statement .decode := fun _ => ⟨opcodeTable[7], List.getElem_mem _, rfl, by decide⟩

/-- FILTER. -/
theorem filter : Statement .filter := fun _ => ⟨opcodeTable[8], List.getElem_mem _, rfl, by decide⟩

/-- SEND_RELIABLE dest, maxRetries. -/
theorem sendReliable (dest maxRetries : Byte) : Statement (.sendReliable dest maxRetries) := fun _ => by
  refine ⟨opcodeTable[9], List.getElem_mem _, rfl, (OpcodeRow.admits_iff _ _).mpr ?_⟩
  refine (commandWord_and 0x30#8 dest maxRetries 0xFF#8 0x00#8 0x00#8).trans ?_
  rw [BitVec.and_zero, BitVec.and_zero]
  rfl

/-- SEND_UNRELIABLE dest. -/
theorem sendUnreliable (dest : Byte) : Statement (.sendUnreliable dest) := fun _ => by
  refine ⟨opcodeTable[10], List.getElem_mem _, rfl, (OpcodeRow.admits_iff _ _).mpr ?_⟩
  refine (commandWord_and 0x31#8 dest 0#8 0xFF#8 0x00#8 0xFF#8).trans ?_
  rw [BitVec.and_zero]
  rfl

/-- STOP. -/
theorem stop : Statement .stop := fun _ => ⟨opcodeTable[11], List.getElem_mem _, rfl, by decide⟩

/-- RXQ_POP. -/
theorem rxqPop : Statement .rxqPop := fun _ => ⟨opcodeTable[12], List.getElem_mem _, rfl, by decide⟩

end Sys2Proof.Laws.EncodeFitsRow
end

