-- ==== Sys2Proof/Tests/Slice0.lean ====
section
/-! SUPPORT. Tests on fixed values, and a witness for every obligation that has hypotheses. The expected values are
those of spec/95_test_vectors.md (V…, P…), of the tables of the rules named, or computed by hand from them. -/

namespace Sys2Proof.Tests

open Sys2Proof Sys2Proof.Machine

set_option Elab.async false

/-! ### Small states -/

/-- The configuration of 95_test_vectors.md, section 0, under which every vector runs. -/
def p0 : Params := Config.params

/-- The payload 48 69 of V30. -/
def hi : List Byte := [0x48#8, 0x69#8]

/-- The image of V30: to 0x03, from 0x01, id 0x02, flags 0x00, payload 48 69. -/
def v30 : List Byte :=
  [0xAA#8, 0xAA#8, 0xAA#8, 0xAA#8, 0x2D#8, 0xD4#8, 0x03#8, 0x01#8, 0x02#8, 0x00#8, 0x02#8, 0x48#8, 0x69#8, 0x1C#8,
    0xFF#8]

/-- The image of V31: to 0x09, from 0x01, id 0x00, flags 0x00, no payload. -/
def v31 : List Byte :=
  [0xAA#8, 0xAA#8, 0xAA#8, 0xAA#8, 0x2D#8, 0xD4#8, 0x09#8, 0x01#8, 0x00#8, 0x00#8, 0x00#8, 0xDD#8, 0xFD#8]

/-- The image of V32: to 0x09, from 0x01, id 0x00, flags 0x00, payload 48 69. -/
def v32 : List Byte :=
  [0xAA#8, 0xAA#8, 0xAA#8, 0xAA#8, 0x2D#8, 0xD4#8, 0x09#8, 0x01#8, 0x00#8, 0x00#8, 0x02#8, 0x48#8, 0x69#8, 0xCF#8,
    0x3F#8]

/-- The image of V33: the ACK from 0x09 to 0x01 for id 0x00. -/
def v33 : List Byte :=
  [0xAA#8, 0xAA#8, 0xAA#8, 0xAA#8, 0x2D#8, 0xD4#8, 0x01#8, 0x09#8, 0x00#8, 0x01#8, 0x00#8, 0x3F#8, 0xCC#8]

/-- The image of V35: to 0x05, from 0x05, id 0x07, flags 0x00, payload 41. -/
def v35 : List Byte :=
  [0xAA#8, 0xAA#8, 0xAA#8, 0xAA#8, 0x2D#8, 0xD4#8, 0x05#8, 0x05#8, 0x07#8, 0x00#8, 0x01#8, 0x41#8, 0x0C#8, 0x81#8]

/-- The image of V36: the ACK that answers V35. -/
def v36 : List Byte :=
  [0xAA#8, 0xAA#8, 0xAA#8, 0xAA#8, 0x2D#8, 0xD4#8, 0x05#8, 0x05#8, 0x07#8, 0x01#8, 0x00#8, 0x7C#8, 0x9D#8]

/-- The image of V39: broadcast, from 0x0A, id 0x20, flags 0x00, payload 55. -/
def v39 : List Byte :=
  [0xAA#8, 0xAA#8, 0xAA#8, 0xAA#8, 0x2D#8, 0xD4#8, 0xFF#8, 0x0A#8, 0x20#8, 0x00#8, 0x01#8, 0x55#8, 0x46#8, 0x61#8]

/-- After RESET, with local address `a` (as `SET_ADDR a, 0` leaves it). -/
def idleAt (a : Byte) : State := { State.reset with conf := ⟨a, false, 0x2DD4#16⟩ }

/-- `s` where the transceiver will answer `init` with true and the other calls from the lists. -/
def answering (readies : List Bool) (receives : List (List Byte × Rssi)) (transmits : List Bool) (s : State) : State :=
  { s with trx := ⟨[true], readies, receives, transmits, []⟩ }

/-- The block of V90 before its command: SELF = 0x01, payload 48 69 loaded, ARG = 200. -/
def loaded : State :=
  { idleAt 0x01#8 with
    mem := [(0x800, 0x48#8), (0x801, 0x69#8)], data := ⟨200#32, 2#8, 0x00020103#32, 0#10⟩ }

/-- A send of V90 pending after `attempts` transmissions with the timer at `remain`. -/
def awaiting (attempts : Byte) (remain : Ticks) : State :=
  { loaded with
    txSeq := 1#8
    pend := ⟨.awaitingAck, 0x09#8, 0x00#8, attempts, 3#8, 200#32, remain, v32⟩
    sendResult := ⟨.pending, 0x00#8, attempts⟩ }

/-- A block whose transceiver failed to start. -/
def fatal : State := { loaded with run := ⟨true, false, false⟩ }

/-- The block after the host writes `w` to CMD. -/
def command (w : Word) (s : State) : State := s.proceed (s.cmdWrite w)

/-- The block after the host writes `v` at offset `off`. -/
def write (off : Nat) (v : Word) (s : State) : State := s.proceed (wr s.cfg off v)

/-- What the bus answers to a 4-byte read at offset `off`. -/
def readAt (off : Nat) (s : State) : BusReply := (s.proceed (rd s.cfg off)).busReply

/-- The fault of an outcome, if it is one. -/
def faultOf (o : Host.Outcome State Fault Refusal) : Option Fault :=
  match o with
  | .next _ => none
  | .fault f => some f
  | .refused _ => none

/-! ### Decoding: one word for each row of R114, its operands written out -/

theorem test_decode_nop : decode 0x00000000#32 = .command .nop := by decide
theorem test_decode_crcInit : decode 0x00000001#32 = .command .crcInit := by decide
theorem test_decode_crcByte : decode 0x00003102#32 = .command (.crcByte 0x31#8) := by decide
theorem test_decode_crcCheck : decode 0x00000003#32 = .command .crcCheck := by decide
theorem test_decode_setAddr : decode 0x00010710#32 = .command (.setAddr 0x07#8 true) := by decide
theorem test_decode_setSync : decode 0x00000011#32 = .command .setSync := by decide
theorem test_decode_encode : decode 0x00000020#32 = .command .encode := by decide
theorem test_decode_decode : decode 0x00000021#32 = .command .decode := by decide
theorem test_decode_filter : decode 0x00000022#32 = .command .filter := by decide
theorem test_decode_sendReliable : decode 0x00030930#32 = .command (.sendReliable 0x09#8 0x03#8) := by decide
theorem test_decode_sendUnreliable : decode 0x0000FF31#32 = .command (.sendUnreliable 0xFF#8) := by decide
theorem test_decode_stop : decode 0x00000038#32 = .command .stop := by decide
theorem test_decode_rxqPop : decode 0x00000040#32 = .command .rxqPop := by decide

/-- The encoder on the same commands gives the words of R114's examples. -/
theorem test_encode_words :
    [encode .nop, encode .crcInit, encode (.crcByte 0x31#8), encode .crcCheck, encode (.setAddr 0x07#8 true),
      encode .setSync, encode .encode, encode .decode, encode .filter, encode (.sendReliable 0x09#8 0x03#8),
      encode (.sendUnreliable 0xFF#8), encode .stop, encode .rxqPop] =
    [0x00000000#32, 0x00000001#32, 0x00003102#32, 0x00000003#32, 0x00010710#32, 0x00000011#32, 0x00000020#32,
      0x00000021#32, 0x00000022#32, 0x00030930#32, 0x0000FF31#32, 0x00000038#32, 0x00000040#32] := by decide

/-- V24, V85, V98, V131, V132, V133 and the examples of R115: words that are illegal. -/
theorem test_decode_illegal :
    [0x00000100#32, 0x00010002#32, 0x00020710#32, 0x01000030#32, 0x00010031#32, 0x01000000#32].map decode =
      List.replicate 6 (.illegal .reservedBits) ∧
    [0x00000004#32, 0x0000000F#32, 0x00000012#32, 0x0000001F#32, 0x00000023#32, 0x0000002F#32, 0x00000032#32,
      0x00000037#32, 0x00000039#32, 0x0000003F#32, 0x00000041#32, 0x000000FF#32].map decode =
      List.replicate 12 (.illegal .unassignedOp) := by decide

/-- The byte lanes of a command word (20_memory.md R85), and the decoder on them. -/
theorem test_decodeTableWord :
    lanesOfWord 0x00030930#32 = [0x30#8, 0x09#8, 0x03#8, 0x00#8] ∧
    decodeTableWord 32 0x00030930 = some (.sendReliable 0x09#8 0x03#8) ∧
    decodeTableWord 32 0x01000030 = none := by decide

/-- The assembler syntax of R116. -/
theorem test_assemble :
    assemble ⟨"SEND_RELIABLE", [9, 3]⟩ = some (.sendReliable 0x09#8 0x03#8) ∧
    assemble (disassemble (.setAddr 0x07#8 true)) = some (.setAddr 0x07#8 true) ∧
    assemble ⟨"CRC_BYTE", [256]⟩ = none := by decide +kernel

/-! ### Well-formedness: an ill-formed term for each check -/

theorem test_wf_command : (Instr.sendReliable 0x09#8 0x03#8).wellFormed = true := by decide

theorem test_wf_line :
    AsmLine.wellFormed ⟨"SEND_RELIABLE", [9, 3]⟩ = true ∧ AsmLine.wellFormed ⟨"SEND_RELAIBLE", [9, 3]⟩ = false ∧
    AsmLine.wellFormed ⟨"SEND_RELIABLE", [9]⟩ = false ∧ AsmLine.wellFormed ⟨"SEND_RELIABLE", [256, 3]⟩ = false ∧
    AsmLine.wellFormed ⟨"SEND_RELIABLE", [9, 256]⟩ = false ∧ AsmLine.wellFormed ⟨"SET_ADDR", [7, 2]⟩ = false ∧
    AsmLine.wellFormed ⟨"SET_ADDR", [256, 1]⟩ = false ∧ AsmLine.wellFormed ⟨"CRC_BYTE", [256]⟩ = false ∧
    AsmLine.wellFormed ⟨"NOP", [0]⟩ = false ∧ AsmLine.wellFormed ⟨"STOP", [1, 2, 3]⟩ = false := by decide +kernel

theorem test_wf_frame :
    Frame.wellFormed 251 ⟨0x03#8, 0x01#8, 0x02#8, 0x00#8, 2#8, hi⟩ ∧
    ¬ Frame.wellFormed 251 ⟨0x03#8, 0x01#8, 0x02#8, 0x00#8, 3#8, hi⟩ ∧
    ¬ Frame.wellFormed 1 ⟨0x03#8, 0x01#8, 0x02#8, 0x00#8, 2#8, hi⟩ := by decide

theorem test_wf_params :
    decide p0.wellFormed = true ∧
    [{ p0 with blockBase := 4 }, { p0 with maxPayload := 256 }, { p0 with preambleLen := 249 }, { p0 with tW := 0 },
      { p0 with tW := 33 }, { p0 with tickPeriod := 0 }, { p0 with rxqDepth := 0 }, { p0 with rxqDepth := 256 },
      { p0 with rssiW := 0 }, { p0 with rssiW := 16 }].map (fun p => decide p.wellFormed) = List.replicate 10 false := by
  decide

/-! ### The CRC unit -/

/-- V1 to V10. -/
theorem test_crc16Update :
    crc16Update 0x0000#16 0x00#8 = 0x0000#16 ∧ crc16Update 0x0000#16 0x01#8 = 0xC0C1#16 ∧
    crc16Update 0x0000#16 0x02#8 = 0xC181#16 ∧ crc16Update 0x0000#16 0x80#8 = 0xA001#16 ∧
    crc16Update 0x0000#16 0xFF#8 = 0x4040#16 ∧ crc16Update 0x0000#16 0x31#8 = 0xD4C1#16 ∧
    crc16Update 0x0000#16 0xA5#8 = 0x7BC0#16 ∧ crc16Update 0xFFFF#16 0x00#8 = 0x40BF#16 ∧
    crc16Update 0xFFFF#16 0xFF#8 = 0x00FF#16 ∧ crc16Update 0x1234#16 0x56#8 = 0xE993#16 := by decide

/-- The bytes of "123456789". -/
def digits : List Byte := [0x31#8, 0x32#8, 0x33#8, 0x34#8, 0x35#8, 0x36#8, 0x37#8, 0x38#8, 0x39#8]

/-- S8, V11 to V14, V16 and V18. -/
theorem test_crc16 :
    crc16 p0 digits = 0xBB3D#16 ∧ crc16 p0 [] = 0x0000#16 ∧ crc16 p0 [0x00#8, 0x00#8] = 0x0000#16 ∧
    crc16 p0 [0x41#8] = 0x30C0#16 ∧ crc16 p0 [0xFF#8, 0xFF#8] = 0xB001#16 ∧
    crc16 p0 [0x03#8, 0x01#8, 0x02#8, 0x00#8, 0x02#8, 0x48#8, 0x69#8] = 0xFF1C#16 ∧
    crc16 { p0 with crcInitVal := 0xFFFF#16 } digits = 0x4B37#16 := by decide +kernel

/-- V20. -/
theorem test_crcInit :
    (command 0x00000001#32 { loaded with crc := ⟨0x1234#16, true⟩ }).crc = ⟨0x0000#16, false⟩ := by decide +kernel

/-- V21, and V25: CRC_BYTE runs while FATAL is set. -/
theorem test_crcByte :
    (command 0x00000102#32 fatal).crc = ⟨0xC0C1#16, false⟩ ∧ (command 0x00000102#32 fatal).cmdResult = .ok ∧
    readAt 0x034 (command 0x00000102#32 fatal) = .value 0x0000C0C1#32 := by decide +kernel

/-- V24. -/
theorem test_crcByte_reserved :
    (command 0x00010002#32 loaded).cmdResult = .illegalCmd ∧
    (command 0x00010002#32 loaded).crc = loaded.crc := by decide +kernel

/-- V22: a mismatch is no error. -/
theorem test_crcCheck_mismatch :
    (command 0x00000003#32 { loaded with crc := ⟨0xBB3D#16, true⟩, data := ⟨0x0000BB3C#32, 0#8, 0#32, 0#10⟩ }).crc =
      ⟨0xBB3D#16, false⟩ ∧
    (command 0x00000003#32 { loaded with data := ⟨0x0000BB3C#32, 0#8, 0#32, 0#10⟩ }).cmdResult = .ok := by
  decide +kernel

/-- V23: ARG[31:16] is ignored. -/
theorem test_crcCheck_match :
    (command 0x00000003#32 { loaded with crc := ⟨0xBB3D#16, false⟩, data := ⟨0x0001BB3D#32, 0#8, 0#32, 0#10⟩ }).crc =
      ⟨0xBB3D#16, true⟩ := by decide +kernel

/-! ### The codec -/

/-- V30, V31, V33 and V42. -/
theorem test_encodeFrame :
    encodeFrame p0 0x2DD4#16 0x03#8 0x01#8 0x02#8 0x00#8 hi = .image v30 ∧
    encodeFrame p0 0x2DD4#16 0x09#8 0x01#8 0x00#8 0x00#8 [] = .image v31 ∧
    encodeFrame p0 0x2DD4#16 0x01#8 0x09#8 0x00#8 0x01#8 [] = .image v33 ∧
    encodeFrame p0 0x2DD4#16 0x03#8 0x01#8 0x02#8 0x00#8 (List.replicate 252 0x00#8) = .payloadTooLong := by
  decide +kernel

/-- V50 to V61, V64 and V67. -/
theorem test_decodeFrame :
    decodeFrame p0 0x2DD4#16 v30 = .frame ⟨0x03#8, 0x01#8, 0x02#8, 0x00#8, 2#8, hi⟩ ∧
    decodeFrame p0 0x2DD4#16 [] = .error .invalidSync ∧
    decodeFrame p0 0x2DD4#16 (v30.take 5) = .error .invalidSync ∧
    decodeFrame p0 0x2DD4#16 (v30.take 6) = .error .lengthMismatch ∧
    decodeFrame p0 0x2DD4#16 (v30.take 10) = .error .lengthMismatch ∧
    decodeFrame p0 0x2DD4#16 (v30.take 11) = .error .lengthMismatch ∧
    decodeFrame p0 0x2DD4#16 (v30.set 5 0xD5#8) = .error .invalidSync ∧
    decodeFrame p0 0x2DD4#16 (v30.take 14) = .error .lengthMismatch ∧
    decodeFrame p0 0x2DD4#16 (v30 ++ [0x00#8]) = .error .lengthMismatch ∧
    decodeFrame p0 0x2DD4#16 (v30.set 10 0x03#8) = .error .lengthMismatch ∧
    decodeFrame p0 0x2DD4#16 (v30.set 14 0xFE#8) = .error .crcMismatch ∧
    decodeFrame p0 0x2DD4#16 (v30.set 0 0x2A#8) = .frame ⟨0x03#8, 0x01#8, 0x02#8, 0x00#8, 2#8, hi⟩ ∧
    decodeFrame p0 0x1234#16 v30 = .error .invalidSync := by decide +kernel

/-- V70. -/
theorem test_encodeCommand :
    (command 0x00000020#32 loaded).bufferBytes .wireTx 16 = v30 ++ [0x00#8] ∧
    (command 0x00000020#32 loaded).wireTxLen = 15#10 ∧
    readAt 0xA04 (command 0x00000020#32 loaded) = .value 0x0103D42D#32 := by decide +kernel

/-- V71: TXLEN = 255. -/
theorem test_encodeCommand_tooLong :
    (command 0x00000020#32 { loaded with data := ⟨0#32, 255#8, 0#32, 0#10⟩ }).cmdResult = .tooLong ∧
    (command 0x00000020#32 { loaded with data := ⟨0#32, 255#8, 0#32, 0#10⟩ }).mem = loaded.mem := by decide +kernel

/-- The block with V30 in WIRE_RX and RXLEN = `n` (V73, V75). -/
def received (n : BitVec 10) : State :=
  { loaded with
    mem := Memory.writeBytes [] 0xC00 v30, data := ⟨0#32, 0#8, 0#32, n⟩, dec := ⟨.none, 0#8, 0#8, 0#8, 0#8, 0#8, true, true⟩ }

/-- V73. -/
theorem test_decodeCommand :
    (command 0x00000021#32 (received 15#10)).dec = ⟨.ok, 0x03#8, 0x01#8, 0x02#8, 0x00#8, 2#8, false, false⟩ := by
  decide +kernel

/-- V75: RXLEN = 1023. -/
theorem test_decodeCommand_tooLong :
    (command 0x00000021#32 (received 1023#10)).cmdResult = .tooLong ∧
    (command 0x00000021#32 (received 1023#10)).dec = (received 1023#10).dec := by decide +kernel

/-! ### The address filter and configuration -/

/-- V81 and V83: the frame decoded last is to 0x03. -/
theorem test_filter :
    (command 0x00000022#32 { idleAt 0x03#8 with dec := ⟨.ok, 0x03#8, 0x01#8, 0x02#8, 0x00#8, 2#8, false, false⟩ }).view
      .decStatus = 0x31#32 ∧
    (command 0x00000022#32 { idleAt 0x07#8 with dec := ⟨.ok, 0x03#8, 0x01#8, 0x02#8, 0x00#8, 2#8, false, false⟩ }).view
      .decStatus = 0x11#32 := by decide +kernel

/-- V82: no frame was decoded. -/
theorem test_filter_noFrame :
    (command 0x00000022#32 { loaded with dec := ⟨.crcMismatch, 0#8, 0#8, 0#8, 0#8, 0#8, true, true⟩ }).view
      .decStatus = 0x04#32 := by decide +kernel

/-- V84. -/
theorem test_setAddr :
    (command 0x00010710#32 loaded).view .config = 0x2DD40107#32 ∧
    (command 0x00010710#32 loaded).trace = loaded.trace ++ [.setAddress 0x07#8 true] := by decide +kernel

/-- V86. -/
theorem test_setAddr_fatal :
    (command 0x00000710#32 fatal).cmdResult = .notRunning ∧ (command 0x00000710#32 fatal).trace = fatal.trace ∧
    (command 0x00000710#32 fatal).conf = fatal.conf := by decide +kernel

/-- SET_SYNC takes ARG[15:0] (30_encoding.md R113: ARG[31:16] is ignored). -/
theorem test_setSync :
    (command 0x00000011#32 { loaded with data := ⟨0x00011234#32, 0#8, 0#32, 0#10⟩ }).conf =
      ⟨0x01#8, false, 0x1234#16⟩ := by decide +kernel

/-! ### Sends -/

/-- V90. -/
theorem test_sendReliable :
    (command 0x00030930#32 (answering [] [] [true] loaded)).pend =
      ⟨.awaitingAck, 0x09#8, 0x00#8, 1#8, 3#8, 200#32, 200#32, v32⟩ ∧
    readAt 0x008 (command 0x00030930#32 (answering [] [] [true] loaded)) = .value 0x00000201#32 ∧
    readAt 0x01C (command 0x00030930#32 (answering [] [] [true] loaded)) = .value 0x03010009#32 := by decide +kernel

/-- V91. -/
theorem test_sendReliable_zero :
    (command 0x00000930#32 loaded).sendResult = ⟨.failed, 0x00#8, 0#8⟩ ∧ (command 0x00000930#32 loaded).txSeq = 1#8 ∧
    (command 0x00000930#32 loaded).trace = loaded.trace ∧ (command 0x00000930#32 loaded).tel.failed = 1#32 := by
  decide +kernel

/-- V94: TX_SEQ = 7, `transmitRaw` answers false. -/
theorem test_sendUnreliable :
    (command 0x00000931#32 (answering [] [] [false] { loaded with txSeq := 7#8 })).sendResult =
      ⟨.txError, 0x07#8, 1#8⟩ := by decide +kernel

/-- V95: a send is pending. -/
theorem test_sendUnreliable_busy :
    (command 0x00000931#32 (awaiting 1#8 5#32)).cmdResult = .busy ∧
    (command 0x00000931#32 (awaiting 1#8 5#32)).txSeq = 1#8 := by decide +kernel

/-- V104 and V101: the timer saturates at 0 and counts down by 1. -/
theorem test_tick : (awaiting 1#8 0#32).tick = awaiting 1#8 0#32 ∧ (awaiting 1#8 1#32).tick = awaiting 1#8 0#32 := by
  decide +kernel

/-- V102: the timer is at 0 and nothing is heard. -/
theorem test_iterate_retransmits :
    (answering [false] [] [true] (awaiting 1#8 0#32)).iterate.pend =
      ⟨.awaitingAck, 0x09#8, 0x00#8, 2#8, 3#8, 200#32, 200#32, v32⟩ ∧
    (answering [false] [] [true] (awaiting 1#8 0#32)).iterate.transmitted = [v32] := by decide +kernel

/-! ### Receiving -/

/-- V110: an ACK in time, at P_REMAIN = 0. -/
theorem test_iterate_acked :
    (answering [true] [(v33, 0x10#15)] [] (awaiting 1#8 0#32)).iterate.sendResult = ⟨.acked, 0x00#8, 1#8⟩ ∧
    (answering [true] [(v33, 0x10#15)] [] (awaiting 1#8 0#32)).iterate.trace =
      loaded.trace ++ [.frameReady, .receiveRaw, .setMode .receive] := by decide +kernel

/-- P5: a data frame is delivered and acknowledged with V36. -/
theorem test_iterate_delivers :
    (answering [true] [(v35, 0x30#15)] [true] (idleAt 0x05#8)).iterate.rxq = [⟨0x05#8, 1#8, [0x41#8], 0x30#15⟩] ∧
    (answering [true] [(v35, 0x30#15)] [true] (idleAt 0x05#8)).iterate.transmitted = [v36] ∧
    (answering [true] [(v35, 0x30#15)] [true] (idleAt 0x05#8)).iterate.peerAt 0x05#8 =
      ⟨true, 0x07#8, true, 0x30#15⟩ := by decide +kernel

/-- The queue of V124. -/
def queued : State := { loaded with rxq := [⟨0x05#8, 1#8, [0x41#8], 0x30#15⟩] }

/-- V124: the first pop. -/
theorem test_rxqPop :
    readAt 0x04C (command 0x00000040#32 queued) = .value 0x80300105#32 ∧
    readAt 0x900 (command 0x00000040#32 queued) = .value 0x00000041#32 ∧
    (command 0x00000040#32 queued).rxq = [] := by decide +kernel

/-- V124: the second pop. -/
theorem test_rxqPop_empty :
    (command 0x00000040#32 { loaded with rxqOut := ⟨0x05#8, 1#8, 0x30#15, true⟩ }).cmdResult = .empty ∧
    readAt 0x04C (command 0x00000040#32 { loaded with rxqOut := ⟨0x05#8, 1#8, 0x30#15, true⟩ }) =
      .value 0x00300105#32 := by decide +kernel

/-! ### Control, the register space, reset -/

/-- V130. -/
theorem test_nop : (command 0x00000000#32 { loaded with cmdResult := .busy }).cmdResult = .ok := by decide +kernel

/-- 45_control_telemetry.md R301: STOP only raises STOP_REQ, and the loop exits at the next ITERATE. -/
theorem test_stop :
    (command 0x00000038#32 loaded).run = ⟨false, true, false⟩ ∧
    (command 0x00000038#32 loaded).iterate.run = ⟨false, true, true⟩ := by decide +kernel

/-- V140 to V144 and V146. -/
theorem test_bus :
    faultOf (loaded.handle (.hostRead 0x002 4)) = some (.busError 0x002 .misaligned) ∧
    faultOf (loaded.handle (.hostRead 0x004 2)) = some (.busError 0x004 .width) ∧
    [0x058, 0x07C, 0xE00].map (fun a => faultOf (loaded.handle (.hostRead a 4))) =
      [some (.busError 0x058 .unmapped), some (.busError 0x07C .unmapped), some (.busError 0xE00 .unmapped)] ∧
    readAt 0x000 loaded = .value 0x00000000#32 ∧
    write 0x008 0xFFFFFFFF#32 loaded = { loaded with busReply := .written } ∧
    write 0x900 0x00000001#32 loaded = { loaded with busReply := .written } := by decide +kernel

/-- V145. -/
theorem test_bus_word :
    (write 0x800 0x44332211#32 loaded).bufferBytes .txBuf 4 = [0x11#8, 0x22#8, 0x33#8, 0x44#8] ∧
    readAt 0x800 (write 0x800 0x44332211#32 loaded) = .value 0x44332211#32 := by decide +kernel

/-- V150: what `State.reset` holds. -/
theorem test_reset :
    State.reset.view .status = 0x00000000#32 ∧ State.reset.view .config = 0x2DD40000#32 ∧
    State.reset.trace = [.init, .setAddress 0x00#8 false, .setMode .receive] ∧
    Memory.wf State.reset.mem = true := by decide +kernel

/-- V151 and V152: RESET of a block with a pending send, when `init` answers false. -/
theorem test_reset_fails :
    ({ awaiting 1#8 5#32 with trx := ⟨[false], [], [], [], []⟩ } : State).resetEvent.view .status = 0x00000002#32 ∧
    ({ awaiting 1#8 5#32 with trx := ⟨[false], [], [], [], []⟩ } : State).resetEvent.trace =
      loaded.trace ++ [.init] := by decide +kernel

/-! ### Witnesses: concrete states and operands that meet the hypotheses of the obligations, clause by clause -/

/-- EncodeOfDecode: a word that decodes. -/
theorem witness_EncodeOfDecode : decode 0x00030930#32 = .command (.sendReliable 0x09#8 0x03#8) := by decide

/-- CommandWordHasOneRow: a word that a row matches, and one that none matches. -/
theorem witness_CommandWordHasOneRow :
    (0x00030930#32 &&& (opcodeTable[9]).mask = (opcodeTable[9]).value) ∧
    (∀ r ∈ opcodeTable, 0x01000030#32 &&& r.mask ≠ r.value) := by
  refine ⟨by decide, ?_⟩
  have key : opcodeTable.all (fun r => (0x01000030#32 &&& r.mask) != r.value) = true := by decide
  simpa using key

/-- ReservedEncodingsAreIllegal: both ends of each unassigned range, and a reserved bit of CRC_INIT. -/
theorem witness_ReservedEncodingsAreIllegal :
    (∀ o ∈ [0x04#8, 0x0F#8, 0x12#8, 0x1F#8, 0x23#8, 0x2F#8, 0x32#8, 0x37#8, 0x39#8, 0x3F#8, 0x41#8, 0xFF#8],
      (0x04#8 ≤ o ∧ o ≤ 0x0F#8) ∨ (0x12#8 ≤ o ∧ o ≤ 0x1F#8) ∨ (0x23#8 ≤ o ∧ o ≤ 0x2F#8) ∨
        (0x32#8 ≤ o ∧ o ≤ 0x37#8) ∨ (0x39#8 ≤ o ∧ o ≤ 0x3F#8) ∨ 0x41#8 ≤ o) ∧
    (opField 0x00000101#32 = opField (opcodeTable[1]).value ∧
      0x00000101#32 &&& (opcodeTable[1]).mask ≠ (opcodeTable[1]).value) := by decide

/-- StepRunsTheDecodedCommand: the next event is a write of a command to CMD. -/
theorem witness_StepRunsTheDecodedCommand :
    ({ loaded with events := [.hostWrite 0 4 0x00030930#32] } : State).events =
      .hostWrite loaded.cfg.blockBase 4 0x00030930#32 :: [] ∧
    decode 0x00030930#32 = .command (.sendReliable 0x09#8 0x03#8) := by decide +kernel

/-- BusErrorExactlyOnBadAccess: the first and the last byte of the window, the three causes at the ends of the
unmapped ranges, and an access with no fault. -/
theorem witness_BusErrorExactlyOnBadAccess :
    (loaded.cfg.blockBase ≤ 0x000 ∧ 0xFFC < loaded.cfg.blockBase + 4096) ∧
    [(0x058, 4), (0x05C, 4), (0x07C, 4), (0x3FC, 4), (0xE00, 4), (0xFFC, 4)].map
      (fun a => locate loaded.cfg a.1 a.2) = List.replicate 6 (.error .unmapped) ∧
    locate loaded.cfg 0x001 4 = .error .misaligned ∧ locate loaded.cfg 0x000 1 = .error .width ∧
    locate loaded.cfg 0x000 4 = .reg .cmd ∧ locate loaded.cfg 0xDFC 4 = .reg (.bufferWord .wireRx 127) := by
  decide +kernel

/-- RegisterAccessKinds: CMD, an RO register, each kind of RW register, and a second register beside it. -/
theorem witness_RegisterAccessKinds :
    Memory.wf loaded.mem = true ∧ regAt 0x000 = some .cmd ∧ regAt 0x008 = some .status ∧
    Reg.status.access = .readOnly ∧ regAt 0x004 = some .arg ∧ regAt 0x028 = some .txLen ∧ regAt 0x038 = some .rxLen ∧
    regAt 0xDFC = some (.bufferWord .wireRx 127) ∧ (Reg.bufferWord .wireRx 127).access = .readWrite ∧
    Reg.txLen.access = .readWrite ∧ regAt 0x800 = some (.bufferWord .txBuf 0) ∧
    regAt 0x7FC = some (.peerW 0xFF#8) := by decide +kernel

/-- OthersIllegal, for every command: a word of its opcode with another value under its mask. -/
theorem witness_OthersIllegal :
    (opField 0x00000100#32 = 0x00#8 ∧ 0x00000100#32 &&& 0xFFFFFFFF#32 ≠ 0x00000000#32) ∧
    (opField 0x00010002#32 = 0x02#8 ∧ 0x00010002#32 &&& 0xFFFF00FF#32 ≠ 0x00000002#32) ∧
    (opField 0x00020010#32 = 0x10#8 ∧ 0x00020010#32 &&& 0xFFFE00FF#32 ≠ 0x00000010#32) ∧
    (opField 0x01000030#32 = 0x30#8 ∧ 0x01000030#32 &&& 0xFF0000FF#32 ≠ 0x00000030#32) ∧
    (opField 0x00010031#32 = 0x31#8 ∧ 0x00010031#32 &&& 0xFFFF00FF#32 ≠ 0x00000031#32) ∧
    [0x01#8, 0x03#8, 0x11#8, 0x20#8, 0x21#8, 0x22#8, 0x38#8, 0x40#8].all (fun o =>
      opField (commandWord o 0x01#8 0x00#8) == o &&
        (commandWord o 0x01#8 0x00#8 &&& 0xFFFFFFFF#32) != commandWord o 0x00#8 0x00#8) = true := by decide

/-- CrcResidueIsZero: the parameters of the vectors. -/
theorem witness_CrcResidueIsZero : p0.crcInitVal = 0x0000#16 ∧ p0.crcXorOut = 0x0000#16 := by decide

/-- CrcUnitIsUndisturbed: a CRC command, and another command with its next state. -/
theorem witness_CrcUnitIsUndisturbed :
    isCrcCommand .crcInit = true ∧ isCrcCommand .stop = false ∧ ∃ t, exec .stop loaded = .next t :=
  ⟨rfl, rfl, _, rfl⟩

/-- WireImageLayout, DecodeOfEncodedFrame, DecodedImagesAreEncodings: a payload, its image, and the frame read back; the
longest payload fits. -/
theorem witness_codec :
    encodeFrame p0 0x2DD4#16 0x03#8 0x01#8 0x02#8 0x00#8 hi = .image v30 ∧ p0.maxPayload ≤ 255 ∧
    hi.length ≤ p0.maxPayload ∧ (List.replicate 251 0x00#8).length ≤ p0.maxPayload ∧
    decodeFrame p0 0x2DD4#16 v30 = .frame ⟨0x03#8, 0x01#8, 0x02#8, 0x00#8, 2#8, hi⟩ := by decide +kernel

/-- SingleBitFlipOutcomes: V30, with a byte of each kind at both ends of its range. -/
theorem witness_SingleBitFlipOutcomes :
    p0.maxPayload ≤ 255 ∧ encodeFrame p0 0x2DD4#16 0x03#8 0x01#8 0x02#8 0x00#8 hi = .image v30 ∧
    (∀ k ∈ [0, 3, 4, 5, 6, 9, 10, 11, 14], k < v30.length) ∧ decodeFrame p0 0x2DD4#16 (flipBit v30 10 7) =
      .error .lengthMismatch ∧ decodeFrame p0 0x2DD4#16 (flipBit v30 14 0) = .error .crcMismatch := by decide +kernel

/-- DecodeLengthCorners: an image too short for the sync word, the two ends of the range that holds no full header, a
Length above MAX_PAYLOAD (252), and an encoded image. -/
theorem witness_DecodeLengthCorners :
    (v30.take 5).length < p0.preambleLen + 2 ∧
    (∀ n ∈ [6, 10], byteAt (v30.take n) 4 = 0x2D#8 ∧ byteAt (v30.take n) 5 = 0xD4#8 ∧
      p0.preambleLen + 2 ≤ (v30.take n).length ∧ (v30.take n).length ≤ p0.preambleLen + 6) ∧
    (p0.preambleLen + 7 ≤ (v30.set 10 252#8).length ∧ p0.maxPayload < (byteAt (v30.set 10 252#8) 10).toNat) ∧
    encodeFrame p0 0x2DD4#16 0x03#8 0x01#8 0x02#8 0x00#8 hi = .image v30 := by decide +kernel

/-- EncodeCommand: a TXLEN above MAX_PAYLOAD and one equal to it. -/
theorem witness_EncodeCommand :
    Memory.wf loaded.mem = true ∧ loaded.cfg.preambleLen ≤ 248 ∧
    ({ loaded with data := ⟨0#32, 252#8, 0#32, 0#10⟩ } : State).cfg.maxPayload < (252#8).toNat ∧
    (251#8).toNat ≤ loaded.cfg.maxPayload ∧ loaded.data.txLen.toNat ≤ loaded.cfg.maxPayload := by decide +kernel

/-- DecodeCommand: an RXLEN above 512 and one equal to it. -/
theorem witness_DecodeCommand :
    512 < (received 513#10).data.rxLen.toNat ∧ (received 512#10).data.rxLen.toNat ≤ 512 ∧
    decodeFrame p0 0x2DD4#16 (Memory.readBytes (received 15#10).mem Buffer.wireRx.start 15) =
      .frame ⟨0x03#8, 0x01#8, 0x02#8, 0x00#8, 2#8, hi⟩ := by decide +kernel

/-- FilterCommand: with and without a decoded frame. -/
theorem witness_FilterCommand :
    loaded.dec.code ≠ .ok ∧
    ({ loaded with dec := ⟨.ok, 0x03#8, 0x01#8, 0x02#8, 0x00#8, 2#8, false, false⟩ } : State).dec.code = .ok := by
  decide

/-- SetAddrCommand: FATAL, STOPPED, and neither. -/
theorem witness_SetAddrCommand :
    fatal.run.fatal = true ∧ ({ loaded with run := ⟨false, true, true⟩ } : State).run.stopped = true ∧
    loaded.run.fatal = false ∧ loaded.run.stopped = false := by decide

/-- ConfigurationWriters: a RESET, a SET_ADDR that changes both fields, a SET_SYNC that changes SYNC. -/
theorem witness_ConfigurationWriters :
    (∃ t, loaded.handle .reset = .next t) ∧
    (∃ t, loaded.handle (.hostWrite 0 4 0x00010710#32) = .next t ∧ t.conf.self ≠ loaded.conf.self ∧
      t.conf.promisc ≠ loaded.conf.promisc) ∧
    (∃ t, loaded.handle (.hostWrite 0 4 0x00000011#32) = .next t ∧ t.conf.sync ≠ loaded.conf.sync) :=
  ⟨⟨_, rfl⟩, ⟨_, rfl, by decide +kernel, by decide +kernel⟩, ⟨_, rfl, by decide +kernel⟩⟩

/-- RunBitsWriters: a STOP, then the ITERATE that leaves the loop, and an event after each. -/
theorem witness_RunBitsWriters :
    (∃ t, loaded.handle (.hostWrite 0 4 0x00000038#32) = .next t ∧ loaded.run.stopReq = false ∧ t.run.stopReq = true) ∧
    (∃ t, (command 0x00000038#32 loaded).handle .iterate = .next t ∧
      (command 0x00000038#32 loaded).run.stopReq = true ∧ (command 0x00000038#32 loaded).run.stopped = false ∧
      t.run.stopped = true) ∧
    (∃ t, ({ loaded with run := ⟨false, true, true⟩ } : State).handle .tick = .next t) :=
  ⟨⟨_, rfl, by decide +kernel, by decide +kernel⟩,
    ⟨_, rfl, by decide +kernel, by decide +kernel, by decide +kernel⟩, ⟨_, rfl⟩⟩

/-- SendRefusedInOrder: each of the three refusals, TXLEN just above MAX_PAYLOAD for the last. -/
theorem witness_SendRefusedInOrder :
    isSendCommand (.sendReliable 0x09#8 0x03#8) = true ∧ isSendCommand (.sendUnreliable 0x09#8) = true ∧
    fatal.running = false ∧ (awaiting 1#8 5#32).running = true ∧ (awaiting 1#8 5#32).pend.state = .awaitingAck ∧
    loaded.running = true ∧ loaded.pend.state ≠ .awaitingAck ∧
    loaded.cfg.maxPayload < ({ loaded with data := ⟨0#32, 252#8, 0#32, 0#10⟩ } : State).data.txLen.toNat := by decide

/-- SendReliableUnicast, SendReliableZeroRetries, SendReliableBroadcast, SendUnreliableCommand: a block that may send,
with 2 bytes and with MAX_PAYLOAD bytes loaded. -/
theorem witness_sends :
    loaded.running = true ∧ loaded.pend.state ≠ .awaitingAck ∧ loaded.data.txLen.toNat ≤ loaded.cfg.maxPayload ∧
    ({ loaded with data := ⟨0#32, 251#8, 0#32, 0#10⟩ } : State).data.txLen.toNat ≤ loaded.cfg.maxPayload ∧
    0x09#8 ≠ 0xFF#8 ∧ 0x03#8 ≠ 0#8 := by decide

/-- SequenceNumberAllocation, BufferFrame: commands with their next states. -/
theorem witness_exec :
    (∃ t, exec (.sendReliable 0x09#8 0x03#8) loaded = .next t) ∧ (∃ t, exec .nop loaded = .next t) ∧
    (∃ t, exec .encode loaded = .next t) ∧ (∃ t, exec .rxqPop queued = .next t) ∧ Memory.wf loaded.mem = true ∧
    Memory.wf queued.mem = true ∧ isSendCommand .nop = false ∧ ∃ t, loaded.handle .iterate = .next t :=
  ⟨⟨_, rfl⟩, ⟨_, rfl⟩, exec_next .encode loaded, ⟨_, rfl⟩, by decide +kernel, by decide +kernel, rfl, ⟨_, rfl⟩⟩

/-- PendingSendIsNotCancelled: a send command while a send is pending. -/
theorem witness_PendingSendIsNotCancelled :
    (awaiting 1#8 5#32).pend.state = .awaitingAck ∧ (awaiting 1#8 5#32).running = true ∧
    locate (awaiting 1#8 5#32).cfg 0 4 = .reg .cmd ∧
    decode 0x00000931#32 = .command (.sendUnreliable 0x09#8) ∧
    ∃ t, (awaiting 1#8 5#32).handle (.hostWrite 0 4 0x00000931#32) = .next t :=
  ⟨by decide, by decide, by decide +kernel, by decide, _, rfl⟩

/-- TickCountsDown: with a send pending and with none. -/
theorem witness_TickCountsDown :
    (awaiting 1#8 0#32).pend.state = .awaitingAck ∧ loaded.pend.state ≠ .awaitingAck := by decide

/-- TimeoutRetransmitsOrFails: nothing is heard, with attempts left, with none left, with time left, and with no send
pending; V30, which the filter rejects, is heard in each of these cases. -/
theorem witness_TimeoutRetransmitsOrFails :
    ((answering [false] [] [true] (awaiting 2#8 0#32)).hearsNothing ∧
      (answering [false] [] [true] (awaiting 3#8 0#32)).hearsNothing ∧
      (answering [false] [] [true] (awaiting 1#8 1#32)).hearsNothing ∧
      (awaiting 2#8 0#32).pend.attempts < (awaiting 2#8 0#32).pend.max ∧
      ¬ (awaiting 3#8 0#32).pend.attempts < (awaiting 3#8 0#32).pend.max ∧
      (awaiting 1#8 1#32).pend.remain ≠ 0#32) ∧
    ((answering [false] [] [] loaded).hearsNothing ∧ loaded.pend.state ≠ .awaitingAck) ∧
    ∀ s ∈ [awaiting 2#8 0#32, awaiting 3#8 0#32, awaiting 1#8 1#32, loaded],
      (answering [true] [(v30, 0x10#15)] [true] s).hears (.frame ⟨0x03#8, 0x01#8, 0x02#8, 0x00#8, 2#8, hi⟩) 0x10#15 ∧
      (answering [true] [(v30, 0x10#15)] [true] s).poll.pend = s.pend := by
  unfold State.hearsNothing State.hears
  decide +kernel

/-- The invariant holds of the pending sends used here. -/
theorem witness_Inv_awaiting (attempts : Byte) (remain : Ticks) (h1 : 1#8 ≤ attempts) (h3 : attempts ≤ 3#8)
    (hr : remain ≤ 200#32) (trx : Transceiver) : Inv { awaiting attempts remain with trx := trx } where
  params := (by decide : p0.wellFormed)
  canonical := (by decide : Memory.wf loaded.mem = true)
  inBuffers := (by decide : ∀ c ∈ loaded.mem, 0x800 ≤ c.1 ∧ c.1 < 0xE00)
  notTransient := ⟨nofun, nofun⟩
  attempts := h3
  awaiting := fun _ => ⟨h1, (by decide : 0x09#8 ≠ broadcast), rfl⟩
  pendingIffBusy := ⟨fun _ => rfl, fun _ => rfl⟩
  timeoutWidth := (by decide : (200#32).toNat < 2 ^ 16)
  remainBound := hr
  imageBound := (by decide : v32.length ≤ 512)
  queueBound := (by decide : 0 ≤ 4)
  records := nofun
  readings := ⟨(by decide +kernel : ∀ a, (loaded.peerAt a).rssi.toNat < 2 ^ 8), (by decide : (0#15).toNat < 2 ^ 8),
    (by decide : (0#15).toNat < 2 ^ 8)⟩
  stopped := nofun
  fatal := nofun
  wireTxBound := (by decide : (0#10).toNat ≤ 512)
  decoded := fun _ => ⟨rfl, rfl, rfl, rfl, rfl⟩
  verdict := ⟨nofun, nofun⟩

/-- The invariant holds of the state after reset. -/
theorem witness_Inv_reset : Inv State.reset where
  params := by decide
  canonical := by decide
  inBuffers := nofun
  notTransient := ⟨nofun, nofun⟩
  attempts := by decide
  awaiting := nofun
  pendingIffBusy := ⟨nofun, nofun⟩
  timeoutWidth := by decide
  remainBound := by decide
  imageBound := by decide
  queueBound := by decide
  records := nofun
  readings := ⟨by decide +kernel, by decide, by decide⟩
  stopped := nofun
  fatal := nofun
  wireTxBound := by decide
  decoded := fun _ => ⟨rfl, rfl, rfl, rfl, rfl⟩
  verdict := ⟨nofun, nofun⟩

/-- PstateTransitions: states with the invariant, a pending one that hears its ACK and a pending one that hears nothing
and has no attempt left, and their next states. -/
theorem witness_PstateTransitions :
    Inv State.reset ∧ (∃ t, State.reset.handle (.hostWrite 0 4 0x00030930#32) = .next t) ∧
    (∃ t, State.reset.handle .reset = .next t) ∧
    Inv (answering [true] [(v33, 0x10#15)] [] (awaiting 1#8 5#32)) ∧
    (answering [true] [(v33, 0x10#15)] [] (awaiting 1#8 5#32)).hearsItsAck ∧
    (∃ t, (answering [true] [(v33, 0x10#15)] [] (awaiting 1#8 5#32)).handle .iterate = .next t ∧
      t.pend.state = .acked) ∧
    Inv (answering [false] [] [] (awaiting 3#8 0#32)) ∧
    (∃ t, (answering [false] [] [] (awaiting 3#8 0#32)).handle .iterate = .next t ∧ t.pend.state = .failed) :=
  ⟨witness_Inv_reset, ⟨_, rfl⟩, ⟨_, rfl⟩, witness_Inv_awaiting 1#8 5#32 (by decide) (by decide) (by decide) _,
    ⟨⟨0x01#8, 0x09#8, 0x00#8, 0x01#8, 0#8, []⟩, 0x10#15, by unfold State.hears; decide +kernel⟩,
    ⟨_, rfl, by decide +kernel⟩, witness_Inv_awaiting 3#8 0#32 (by decide) (by decide) (by decide) _,
    ⟨_, rfl, by decide +kernel⟩⟩

/-- RegisterLayouts: a pending send with the invariant, and a bit above T_W. -/
theorem witness_RegisterLayouts :
    Inv (answering [] [] [] (awaiting 1#8 5#32)) ∧ (awaiting 1#8 5#32).cfg.tW ≤ 16 :=
  ⟨witness_Inv_awaiting 1#8 5#32 (by decide) (by decide) (by decide) _, by decide⟩

/-- StepKeepsInv: a step of a pending send that hears its ACK. -/
theorem witness_StepKeepsInv :
    Inv { answering [true] [(v33, 0x10#15)] [] (awaiting 1#8 5#32) with events := [.iterate] } ∧
    ∃ t, step { answering [true] [(v33, 0x10#15)] [] (awaiting 1#8 5#32) with events := [.iterate] } = .next t :=
  ⟨Inv_of_same_fields _ _ (witness_Inv_awaiting 1#8 5#32 (by decide) (by decide) (by decide)
    ⟨[true], [true], [(v33, 0x10#15)], [], []⟩) rfl rfl rfl rfl rfl rfl rfl rfl rfl rfl rfl, _, rfl⟩

/-- RetryExhaustion: V90's send, the transceiver hearing nothing three times; and a send of two transmissions with
ackTimeout 1 that fails after an extra TICK and an ITERATE that hears V30. -/
theorem witness_RetryExhaustion :
    (loaded.sendRefusal = none ∧ 0x09#8 ≠ 0xFF#8 ∧ 0x03#8 ≠ 0#8 ∧
      (answering [false, false, false] [] [true, true, true] loaded).trx.readies =
        List.replicate (0x03#8).toNat false ++ [] ∧
      ∃ t, exec (.sendReliable 0x09#8 0x03#8) (answering [false, false, false] [] [true, true, true] loaded) =
        .next t) ∧
    ∃ t, exec (.sendReliable 0x09#8 0x02#8)
        (answering [false, true, false] [(v30, 0x10#15)] [true, true]
          { loaded with data := ⟨1#32, 2#8, 0#32, 0#10⟩ }) = .next t ∧
      let es : List Event := [.tick, .tick, .iterate, .iterate, .tick, .iterate]
      (∀ n < es.length, (t.runEvents (es.take n)).pend.state = .awaitingAck) ∧
      (t.runEvents es).pend.state = .failed ∧ t.decrements es = 2 :=
  ⟨⟨by decide, by decide, by decide, by decide, _, rfl⟩, _, rfl, by decide +kernel⟩

/-- TelemetryGatesNothing: two states that differ in the telemetry registers, a per-peer reading among them. -/
theorem witness_TelemetryGatesNothing :
    (idleAt 0x05#8).noteRssi 0x0A#8 0x22#15 ≠ idleAt 0x05#8 ∧
    ((idleAt 0x05#8).noteRssi 0x0A#8 0x22#15).withoutTelemetry = (idleAt 0x05#8).withoutTelemetry ∧
    (∃ t, (idleAt 0x05#8).handle .iterate = .next t) ∧ isSendCommand .nop = false ∧
    ∃ t, exec .nop (idleAt 0x05#8) = .next t :=
  ⟨by decide +kernel, by decide +kernel, ⟨_, rfl⟩, rfl, _, rfl⟩

/-- FairEnvironmentResolvesSend: ITERATE and TICK in turn, from a state with the invariant. -/
theorem witness_FairEnvironmentResolvesSend :
    Inv (answering [] [] [] (awaiting 1#8 5#32)) ∧
    FairEvents (fun n => if n % 2 = 0 then .iterate else .tick) := by
  refine ⟨witness_Inv_awaiting 1#8 5#32 (by decide) (by decide) (by decide) _, fun n => ⟨2 * n, by omega, ?_⟩,
    fun n => ⟨2 * n + 1, by omega, ?_⟩⟩
  · exact if_pos (by omega)
  · exact if_neg (by omega)

/-- LoopExit: FATAL, STOPPED, and a stop flag with no send pending. -/
theorem witness_LoopExit :
    fatal.run.fatal = true ∧ ({ loaded with run := ⟨false, true, true⟩ } : State).run.stopped = true ∧
    ({ loaded with run := ⟨false, true, false⟩ } : State).run = ⟨false, true, false⟩ ∧
    loaded.pend.state ≠ .awaitingAck := by decide

/-- DroppedImages: an image of each kind, and a frame the filter rejects. -/
theorem witness_DroppedImages :
    (answering [true] [([], 0x10#15)] [] loaded).hears (.error .invalidSync) 0x10#15 ∧
    (answering [true] [(v30.take 6, 0x10#15)] [] loaded).hears (.error .lengthMismatch) 0x10#15 ∧
    (answering [true] [(v30.set 14 0xFE#8, 0x10#15)] [] loaded).hears (.error .crcMismatch) 0x10#15 ∧
    (answering [true] [(v30, 0x10#15)] [] loaded).hears
      (.frame ⟨0x03#8, 0x01#8, 0x02#8, 0x00#8, 2#8, hi⟩) 0x10#15 ∧
    loaded.accepts 0x03#8 = false := by
  unfold State.hears
  decide +kernel

/-- The data frame of V35. -/
def f35 : Frame := ⟨0x05#8, 0x05#8, 0x07#8, 0x00#8, 1#8, [0x41#8]⟩

/-- DataFrameProcessing: V35 heard fresh with room in RXQ, with RXQ full, and as a duplicate; it is eligible, and
V39's frame, a broadcast, is not. -/
theorem witness_DataFrameProcessing :
    (answering [true] [(v35, 0x30#15)] [] (idleAt 0x05#8)).hears (.frame f35) 0x30#15 ∧
    (idleAt 0x05#8).accepts f35.toAddr = true ∧ f35.flags.getLsbD 0 = false ∧
    ¬ (((idleAt 0x05#8).peerAt 0x05#8).idValid = true ∧ ((idleAt 0x05#8).peerAt 0x05#8).lastId = f35.id) ∧
    (idleAt 0x05#8).rxq.length < (idleAt 0x05#8).cfg.rxqDepth ∧
    (idleAt 0x05#8).cfg.rxqDepth ≤
      ({ idleAt 0x05#8 with rxq := List.replicate 4 ⟨0x0B#8, 0#8, [], 0#15⟩ } : State).rxq.length ∧
    (((idleAt 0x05#8).setPeer 0x05#8 ⟨true, 0x07#8, true, 0#15⟩).peerAt 0x05#8).lastId = f35.id ∧
    (f35.toAddr ≠ 0xFF#8 ∧ f35.flags.getLsbD 1 = false) ∧
    (answering [true] [(v39, 0x22#15)] [] (idleAt 0x07#8)).hears
      (.frame ⟨0xFF#8, 0x0A#8, 0x20#8, 0x00#8, 1#8, [0x55#8]⟩) 0x22#15 := by
  unfold State.hears
  decide +kernel

/-- AckFrameProcessing: V33 heard by the send it answers, and by a block with no send pending. -/
theorem witness_AckFrameProcessing :
    (answering [true] [(v33, 0x10#15)] [] (awaiting 1#8 5#32)).hears
      (.frame ⟨0x01#8, 0x09#8, 0x00#8, 0x01#8, 0#8, []⟩) 0x10#15 ∧
    (awaiting 1#8 5#32).accepts 0x01#8 = true ∧ (0x01#8).getLsbD 0 = true ∧
    (awaiting 1#8 5#32).pend.state = .awaitingAck ∧ (awaiting 1#8 5#32).pend.dest = 0x09#8 ∧
    (awaiting 1#8 5#32).pend.id = 0x00#8 ∧
    (answering [true] [(v33, 0x10#15)] [] loaded).hears
      (.frame ⟨0x01#8, 0x09#8, 0x00#8, 0x01#8, 0#8, []⟩) 0x10#15 ∧
    loaded.pend.state ≠ .awaitingAck := by
  unfold State.hears
  decide +kernel

/-- DuplicateDeliveredOnceAckedTwice: V35 heard twice (P5). -/
theorem witness_DuplicateDeliveredOnceAckedTwice :
    let s := answering [true, true] [(v35, 0x30#15), (v35, 0x31#15)] [true, true] (idleAt 0x05#8)
    s.hears (.frame f35) 0x30#15 ∧ s.iterate.hears (.frame f35) 0x31#15 ∧ s.accepts f35.toAddr = true ∧
    f35.flags.getLsbD 0 = false ∧ f35.flags.getLsbD 1 = false ∧ f35.toAddr ≠ 0xFF#8 ∧
    s.rxq.length < s.cfg.rxqDepth ∧ s.pend.state ≠ .awaitingAck ∧ (s.peerAt f35.fromAddr).idValid = false := by
  unfold State.hears
  decide +kernel

/-- BroadcastIsNeverAcked: V39 heard (P7). -/
theorem witness_BroadcastIsNeverAcked :
    (answering [true] [(v39, 0x22#15)] [] (idleAt 0x07#8)).hears
      (.frame ⟨0xFF#8, 0x0A#8, 0x20#8, 0x00#8, 1#8, [0x55#8]⟩) 0x22#15 := by
  unfold State.hears
  decide +kernel

/-- RxqPopCommand: an empty queue and one record. -/
theorem witness_RxqPopCommand :
    Memory.wf loaded.mem = true ∧ loaded.rxq = [] ∧ Memory.wf queued.mem = true ∧
    queued.rxq = ⟨0x05#8, 1#8, [0x41#8], 0x30#15⟩ :: [] := by decide

/-- FatalBlock: a block with FATAL set, and events and commands of each clause with their next states. -/
theorem witness_FatalBlock :
    fatal.run.fatal = true ∧ (∃ t, fatal.handle .iterate = .next t) ∧
    isSendCommand (.sendUnreliable 0x09#8) = true ∧ isSendCommand .crcInit = false ∧
    ∃ t, exec .crcInit fatal = .next t :=
  ⟨rfl, ⟨_, rfl⟩, rfl, rfl, _, rfl⟩

/-- RegistersAfterReset: parameters in their ranges, and the first and last mapped registers. -/
theorem witness_RegistersAfterReset :
    p0.wellFormed ∧ regAt 0x000 = some .cmd ∧ regAt 0x014 = some .config ∧ regAt 0x030 = some .crcAcc ∧
    regAt 0x034 = some .crcFinal ∧ regAt 0xDFC = some (.bufferWord .wireRx 127) := by decide +kernel

/-- InvAfterReset: parameters at the ends of their ranges. -/
theorem witness_InvAfterReset :
    p0.wellFormed ∧ (⟨4096, 255, 248, 0xAA#8, 0x2DD4#16, 0x00#8, 0#16, 0#16, 32, 1, 255, 15⟩ : Params).wellFormed ∧
    (⟨0, 0, 0, 0xAA#8, 0x2DD4#16, 0x00#8, 0#16, 0#16, 1, 1, 1, 1⟩ : Params).wellFormed := by decide

/-- NodesShareNoState: two nodes. -/
theorem witness_NodesShareNoState : (0 : Nat) ≠ 1 ∧ ∃ net : Network, net.nodes.length = 2 :=
  ⟨by decide, ⟨[State.reset, State.reset]⟩, rfl⟩

end Sys2Proof.Tests
end

section
/-! Every step keeps the invariant: one lemma per operation of the model, then the commands, the events and the step. -/

namespace Sys2Proof.Machine

/-! ### Pieces of state that the invariant does not speak of -/

/-- No clause of the invariant speaks of the configuration, TX_SEQ, the data registers, the CRC unit, CMD_RESULT, the
observations and the events to come. -/
theorem inv_of_unconstrained {s : State} (h : Inv s) (conf : LinkConfig) (txSeq : Byte) (data : HostData)
    (crc : CrcUnit) (cmdResult : CmdResult) (trace : List TrxCall) (trx : Transceiver) (events : List Event)
    (busReply : BusReply) :
    Inv { s with
      conf := conf, txSeq := txSeq, data := data, crc := crc, cmdResult := cmdResult, trace := trace, trx := trx
      events := events, busReply := busReply } :=
  { h with }

/-- Of the telemetry registers the invariant speaks of LAST_RSSI only (10_state.md R45). -/
theorem inv_of_lastRssi_eq {s : State} (h : Inv s) (tel : Telemetry) (ht : tel.lastRssi = s.tel.lastRssi) :
    Inv { s with tel := tel } := by
  obtain ⟨hpeer, hlast, hout⟩ := h.readings
  exact { h with readings := ⟨hpeer, ht ▸ hlast, hout⟩ }

theorem setResult_keeps_inv {s : State} (h : Inv s) (r : CmdResult) : Inv (s.setResult r) :=
  inv_of_unconstrained h ..

theorem callSetMode_keeps_inv {s : State} (h : Inv s) (m : TrxMode) : Inv (s.callSetMode m) :=
  inv_of_unconstrained h ..

theorem emitAck_keeps_inv {s : State} (h : Inv s) (a i : Byte) : Inv (s.emitAck a i) :=
  inv_of_unconstrained h ..

/-! ### The byte buffers -/

/-- The four buffers lie in 0x800 to 0xDFF (20_memory.md R81). -/
theorem Buffer.within_space (b : Buffer) : 0x800 ≤ b.start ∧ b.start + b.size ≤ 0xE00 := by
  cases b <;> decide

/-- Bytes stored within a buffer list no offset outside the buffers. -/
theorem Memory.writeBytes_inBuffers (m : List Host.Cell) (b : Buffer) (k : Nat) (bytes : List Byte)
    (hm : ∀ c ∈ m, 0x800 ≤ c.1 ∧ c.1 < 0xE00) (hk : k + bytes.length ≤ b.size) :
    ∀ c ∈ Memory.writeBytes m (b.start + k) bytes, 0x800 ≤ c.1 ∧ c.1 < 0xE00 := by
  intro c hc
  have hb := b.within_space
  rcases Memory.mem_writeBytes bytes m _ c hc with hold | hnew
  · exact hm c hold
  · omega

theorem fillBuffer_keeps_inv {s : State} (h : Inv s) (b : Buffer) (bytes : List Byte) : Inv (s.fillBuffer b bytes) :=
  { h with
    canonical := fillBuffer_wf b bytes s h.canonical
    inBuffers := fun c hc =>
      Memory.writeBytes_inBuffers s.mem b 0 (bytes.take b.size) h.inBuffers (by simp) c (List.mem_filter.mp hc).1 }

theorem storeBufferWord_keeps_inv {s : State} (h : Inv s) (b : Buffer) (m : Nat) (v : Word)
    (hm : 4 * m + 4 ≤ b.size) : Inv (s.storeBufferWord b m v) :=
  { h with
    canonical := storeBufferWord_wf b m v s h.canonical
    inBuffers := Memory.writeBytes_inBuffers s.mem b (4 * m) (lanesOfWord v) h.inBuffers hm }

/-- A buffer word that an access reaches has its four bytes inside its buffer (20_memory.md R81, R84, R86). -/
theorem bufferWord_within_buffer (p : Params) (addr size : Nat) (b : Buffer) (m : Nat)
    (h : locate p addr size = .reg (.bufferWord b m)) : 4 * m + 4 ≤ b.size := by
  obtain ⟨-, -, -, halign, hreg⟩ := locate_eq_reg p addr size _ h
  obtain ⟨-, -, hm, hlo, hhi⟩ := regAt_bufferWord _ b m hreg
  cases b <;> simp only [Buffer.start, Buffer.size, wireBuf] at * <;> omega

theorem storeReg_keeps_inv {s : State} (h : Inv s) (addr size : Nat) (r : Reg) (v : Word)
    (hr : locate s.cfg addr size = .reg r) : Inv (s.storeReg r v) := by
  rcases storeReg_cases r v s with ⟨d, hs⟩ | ⟨b, m, rfl, -, hs⟩ | ⟨-, hs⟩ <;> rw [hs]
  · exact inv_of_unconstrained h ..
  · exact storeBufferWord_keeps_inv h b m v (bufferWord_within_buffer _ _ _ b m hr)
  · exact h

/-! ### Wire images -/

/-- With parameters in their ranges no encoded image is longer than a wire-image buffer (30_encoding.md R125). -/
theorem encodedBytes_length_le (p : Params) (hp : p.wellFormed) (sync : Half) (a b c d : Byte) (payload : List Byte) :
    (encodedBytes (encodeFrame p sync a b c d payload)).length ≤ wireBuf := by
  obtain ⟨-, hmax, hpre, -⟩ := hp
  unfold encodeFrame
  split
  · simp [encodedBytes]
  · simp only [encodedBytes, wireImage_length, wireBuf]
    omega

/-! ### The Pending Send and SEND_RESULT -/

/-- A block with a send pending runs (44_receive.md R261; 70_reset_and_hazards.md R351). -/
theorem running_of_awaiting {s : State} (h : Inv s) (ha : s.pend.state = .awaitingAck) : s.running = true := by
  refine (running_iff s).mpr ⟨Bool.eq_false_iff.mpr fun hf => ?_, Bool.eq_false_iff.mpr fun hs => ?_⟩
  · exact absurd (ha.symm.trans (h.fatal hf).2) (by decide)
  · exact (h.stopped hs).2 ha

/-- A send of a running block is resolved: PSTATE becomes ACKED or FAILED, and SR_CODE is no longer PENDING
(43_send.md R221, R227; 44_receive.md R268). -/
theorem resolve_keeps_inv {s : State} (h : Inv s) (hrun : s.running = true) (p : PState) (r : SendResult)
    (hp : p = .acked ∨ p = .failed) (hr : r.code ≠ .pending) :
    Inv { s with pend := { s.pend with state := p }, sendResult := r } := by
  obtain ⟨hfatal, hstopped⟩ := (running_iff s).mp hrun
  obtain ⟨hsending, hretrying, hwait⟩ : p ≠ .sending ∧ p ≠ .retrying ∧ p ≠ .awaitingAck := by
    rcases hp with rfl | rfl <;> decide
  exact { h with
    notTransient := ⟨hsending, hretrying⟩
    awaiting := fun ha => absurd ha hwait
    pendingIffBusy := ⟨fun hc => absurd hc hr, fun ha => absurd ha hwait⟩
    stopped := fun hs => absurd (hstopped.symm.trans hs) (by decide)
    fatal := fun hf => absurd (hfatal.symm.trans hf) (by decide) }

/-- With no send pending SEND_RESULT takes any value but PENDING (43_send.md R223, R224, R230). -/
theorem setSendResult_keeps_inv {s : State} (h : Inv s) (hidle : s.pend.state ≠ .awaitingAck) (code : SrCode)
    (id attempts : Byte) (hc : code ≠ .pending) : Inv (s.setSendResult code id attempts) :=
  { h with
    awaiting := fun ha => absurd ha hidle
    pendingIffBusy := ⟨fun hp => absurd hp hc, fun ha => absurd ha hidle⟩ }

theorem sendOnce_keeps_inv {s : State} (h : Inv s) (hidle : s.pend.state ≠ .awaitingAck) (image : List Byte)
    (id : Byte) : Inv (s.sendOnce image id) := by
  have hsent : Inv (s.transmit image) := inv_of_unconstrained h ..
  exact setSendResult_keeps_inv hsent hidle _ id 1#8 (by split <;> decide)

/-- `ackTimeout` has T_W bits (30_encoding.md R113). -/
theorem ackTimeout_lt (s : State) : s.ackTimeout.toNat < 2 ^ s.cfg.tW := by
  unfold State.ackTimeout lowBits
  rw [BitVec.toNat_ofNat]
  exact (Nat.mod_le _ _).trans_lt (Nat.mod_lt _ (by positivity))

theorem startPending_keeps_inv {s : State} (h : Inv s) (hidle : s.pend.state ≠ .awaitingAck) (dest id max : Byte)
    (timeout : Ticks) (image : List Byte) (ht : timeout.toNat < 2 ^ s.cfg.tW) (hi : image.length ≤ wireBuf) :
    Inv (s.startPending dest id max timeout image) :=
  { h with
    attempts := Nat.zero_le _
    awaiting := fun ha => absurd ha hidle
    timeoutWidth := ht
    remainBound := Nat.zero_le _
    imageBound := hi }

/-- The first attempt of a running block, to a unicast destination and with an attempt allowed (43_send.md R222). -/
theorem firstAttempt_keeps_inv {s : State} (h : Inv s) (hrun : s.running = true) (hdest : s.pend.dest ≠ broadcast)
    (hmax : s.pend.max ≠ 0#8) : Inv s.firstAttempt := by
  obtain ⟨hfatal, hstopped⟩ := (running_iff s).mp hrun
  rw [firstAttempt_eq]
  exact { h with
    notTransient := ⟨nofun, nofun⟩
    attempts := by simp only; bv_omega
    awaiting := fun _ => ⟨BitVec.le_refl _, hdest, rfl⟩
    pendingIffBusy := ⟨fun _ => rfl, fun _ => rfl⟩
    remainBound := BitVec.le_refl _
    stopped := fun hs => absurd (hstopped.symm.trans hs) (by decide)
    fatal := fun hf => absurd (hfatal.symm.trans hf) (by decide) }

theorem acceptReliable_keeps_inv {s : State} (h : Inv s) (hacc : s.sendRefusal = none) (dest maxRetries : Byte) :
    Inv (s.acceptReliable dest maxRetries) := by
  obtain ⟨hfatal, hstopped, hidle, -⟩ := (sendRefusal_eq_none_iff s).mp hacc
  have hrun : s.running = true := (running_iff s).mpr ⟨hfatal, hstopped⟩
  have hok : Inv (s.allocId.setResult .ok) := inv_of_unconstrained h ..
  have hpending : Inv ((s.allocId.setResult .ok).startPending dest s.txSeq maxRetries s.ackTimeout
      (s.sendImage dest 0x00#8)) :=
    startPending_keeps_inv hok hidle _ _ _ _ _ (ackTimeout_lt s) (encodedBytes_length_le _ h.params ..)
  rcases acceptReliable_cases dest maxRetries s with ⟨-, ht⟩ | ⟨-, -, ht⟩ | ⟨hdest, hmax, ht⟩ <;> rw [ht]
  · exact sendOnce_keeps_inv hok hidle _ _
  · have hfailed := resolve_keeps_inv hpending hrun .failed ⟨.failed, s.txSeq, 0#8⟩ (Or.inr rfl) nofun
    exact inv_of_lastRssi_eq hfailed { s.tel with failed := s.tel.failed + 1 } rfl
  · exact firstAttempt_keeps_inv hpending hrun hdest hmax

theorem tick_keeps_inv {s : State} (h : Inv s) : Inv s.tick := by
  rcases tick_cases s with ⟨-, hpos, ht⟩ | ⟨-, ht⟩ <;> rw [ht]
  · have hle := h.remainBound
    exact { h with remainBound := by simp only; bv_omega }
  · exact h

/-- A retransmission, with an attempt left: P_ATTEMPTS goes up without wrapping and SR_ATTEMPTS with it
(43_send.md R226, R231). -/
theorem retransmit_keeps_inv {s : State} (h : Inv s) (ha : s.pend.state = .awaitingAck)
    (hlt : s.pend.attempts < s.pend.max) : Inv s.retransmit := by
  obtain ⟨hone, hdest, hres⟩ := h.awaiting ha
  obtain ⟨hfatal, hstopped⟩ := (running_iff s).mp (running_of_awaiting h ha)
  rw [retransmit_eq]
  exact { h with
    notTransient := ⟨nofun, nofun⟩
    attempts := by simp only; bv_omega
    awaiting := fun _ => ⟨by simp only; bv_omega, hdest, by simp only [hres]⟩
    pendingIffBusy := ⟨fun _ => rfl, fun _ => h.pendingIffBusy.mpr ha⟩
    remainBound := BitVec.le_refl _
    stopped := fun hs => absurd (hstopped.symm.trans hs) (by decide)
    fatal := fun hf => absurd (hfatal.symm.trans hf) (by decide) }

theorem timeoutCheck_keeps_inv {s : State} (h : Inv s) : Inv s.timeoutCheck := by
  rcases timeoutCheck_cases s with ⟨ha, -, hlt, ht⟩ | ⟨ha, -, -, ht⟩ | ⟨-, ht⟩ <;> rw [ht]
  · exact retransmit_keeps_inv h ha hlt
  · have hfailed := resolve_keeps_inv h (running_of_awaiting h ha) .failed { s.sendResult with code := .failed }
      (Or.inr rfl) nofun
    exact inv_of_lastRssi_eq hfailed { s.tel with failed := s.tel.failed + 1 } rfl
  · exact h

/-! ### The receive engine -/

theorem ackMatch_keeps_inv {s : State} (h : Inv s) (f : Frame) : Inv (s.ackMatch f) := by
  rcases ackMatch_cases f s with ⟨ha, -, -, ht⟩ | ⟨-, ht⟩ <;> rw [ht]
  · exact resolve_keeps_inv h (running_of_awaiting h ha) .acked ⟨.acked, s.pend.id, s.pend.attempts⟩ (Or.inl rfl)
      nofun
  · exact h

theorem setPeer_keeps_inv {s : State} (h : Inv s) (a : Byte) (e : PeerEntry)
    (he : e.rssi.toNat < 2 ^ s.cfg.rssiW) : Inv (s.setPeer a e) := by
  obtain ⟨hpeer, hlast, hout⟩ := h.readings
  refine { h with readings := ⟨fun b => ?_, hlast, hout⟩ }
  rw [peerAt_setPeer]
  split
  · exact he
  · exact hpeer b

theorem noteRssi_keeps_inv {s : State} (h : Inv s) (a : Byte) (rssi : Rssi) (hr : rssi.toNat < 2 ^ s.cfg.rssiW) :
    Inv (s.noteRssi a rssi) := by
  obtain ⟨hpeer, -, hout⟩ := h.readings
  have hnoted : Inv { s with tel := { s.tel with lastRssi := rssi, lastRssiValid := true } } :=
    { h with readings := ⟨hpeer, hr, hout⟩ }
  exact setPeer_keeps_inv hnoted a _ hr

/-- A well-formed frame is queued while the queue has room (44_receive.md R271). -/
theorem deliver_keeps_inv {s : State} (h : Inv s) (f : Frame) (rssi : Rssi) (hf : f.wellFormed s.cfg.maxPayload)
    (hr : rssi.toNat < 2 ^ s.cfg.rssiW) : Inv (s.deliver f rssi) := by
  rcases deliver_cases f rssi s with ⟨hroom, ht⟩ | ⟨-, ht⟩ <;> rw [ht]
  · obtain ⟨hlen, hmax⟩ := hf
    exact { h with
      queueBound := by simpa [State.rxqCount] using hroom
      records := fun r hmem => by
        rcases List.mem_append.mp hmem with hold | hnew
        · exact h.records r hold
        · obtain rfl := List.mem_singleton.mp hnew
          exact ⟨hlen, hmax, hr⟩ }
  · exact inv_of_lastRssi_eq h _ rfl

theorem acceptFresh_keeps_inv {s : State} (h : Inv s) (f : Frame) (rssi : Rssi) (hf : f.wellFormed s.cfg.maxPayload)
    (hr : rssi.toNat < 2 ^ s.cfg.rssiW) : Inv (s.acceptFresh f rssi) := by
  have hdeliv := deliver_keeps_inv h f rssi hf hr
  exact setPeer_keeps_inv hdeliv f.fromAddr _ (hdeliv.readings.1 f.fromAddr)

theorem manage_keeps_inv {s : State} (h : Inv s) (f : Frame) (rssi : Rssi) (hf : f.wellFormed s.cfg.maxPayload)
    (hr : rssi.toNat < 2 ^ s.cfg.rssiW) : Inv (s.manage f rssi) := by
  have hfresh := acceptFresh_keeps_inv h f rssi hf hr
  rcases manage_cases f rssi s with ⟨-, ht⟩ | ⟨-, -, -, ht⟩ | ⟨-, -, -, ht⟩ | ⟨-, -, -, ht⟩ | ⟨-, -, -, ht⟩ <;> rw [ht]
  · exact ackMatch_keeps_inv h f
  · exact emitAck_keeps_inv h _ _
  · exact h
  · exact emitAck_keeps_inv hfresh _ _
  · exact hfresh

theorem rxProcess_keeps_inv {s : State} (h : Inv s) (bytes : List Byte) (rssi : Rssi)
    (hr : rssi.toNat < 2 ^ s.cfg.rssiW) : Inv (s.rxProcess bytes rssi) := by
  refine callSetMode_keeps_inv ?_ .receive
  rcases rxOutcome_cases (decodeFrame s.cfg s.conf.sync bytes) rssi s with
    ⟨e, -, ht⟩ | ⟨f, -, -, ht⟩ | ⟨f, hframe, -, ht⟩ <;> rw [ht]
  · rw [countDrop_frame]
    exact inv_of_lastRssi_eq h _ (by cases e <;> rfl)
  · exact h
  · exact manage_keeps_inv (noteRssi_keeps_inv h f.fromAddr rssi hr) f rssi (decodeFrame_wellFormed _ _ _ f hframe) hr

theorem poll_keeps_inv {s : State} (h : Inv s) : Inv s.poll := by
  rcases poll_cases s with ⟨-, ht⟩ | ⟨-, ht⟩ <;> rw [ht]
  · exact inv_of_unconstrained h ..
  · have htook : Inv s.callFrameReady.callReceiveRaw := inv_of_unconstrained h ..
    exact rxProcess_keeps_inv htook _ _ (rssiDraw_lt s.cfg _)

/-- The loop exits with STOP_REQ set, no send pending and FATAL clear (44_receive.md R260, R261). -/
theorem loopExit_keeps_inv {s : State} (h : Inv s) (hrun : s.running = true) (hstop : s.run.stopReq = true)
    (hidle : s.pend.state ≠ .awaitingAck) : Inv s.loopExit := by
  obtain ⟨hfatal, -⟩ := (running_iff s).mp hrun
  exact { h with
    stopped := fun _ => ⟨hstop, hidle⟩
    fatal := fun hf => absurd (hfatal.symm.trans hf) (by decide) }

theorem iterate_keeps_inv {s : State} (h : Inv s) : Inv s.iterate := by
  rcases iterate_cases s with ⟨-, ht⟩ | ⟨hrun, hstop, hidle, ht⟩ | ⟨-, -, ht⟩ <;> rw [ht]
  · exact h
  · exact loopExit_keeps_inv h hrun hstop hidle
  · exact timeoutCheck_keeps_inv (poll_keeps_inv h)

/-! ### The commands -/

theorem execStop_keeps_inv {s t : State} (h : Inv s) (ht : execStop s = .next t) : Inv t := by
  cases ht
  refine setResult_keeps_inv ?_ .ok
  exact { h with stopped := fun hs => ⟨rfl, (h.stopped hs).2⟩ }

theorem execSetAddr_keeps_inv {s t : State} (h : Inv s) (self : Byte) (promiscuous : Bool)
    (ht : execSetAddr self promiscuous s = .next t) : Inv t := by
  unfold execSetAddr at ht
  split at ht <;> cases ht
  · exact inv_of_unconstrained h ..
  · exact setResult_keeps_inv h _

theorem execEncode_keeps_inv {s t : State} (h : Inv s) (ht : execEncode s = .next t) : Inv t := by
  have hlen := encodedBytes_length_le s.cfg h.params s.conf.sync s.hdrTo s.hdrFrom s.hdrId s.hdrFlags s.txPayload
  unfold execEncode at ht
  split at ht <;> cases ht
  · exact setResult_keeps_inv h _
  · rename_i bytes himage
    rw [himage, encodedBytes] at hlen
    refine setResult_keeps_inv ?_ .ok
    exact { fillBuffer_keeps_inv h .wireTx bytes with
      wireTxBound := by
        simp only [BitVec.toNat_ofNat]
        exact (Nat.mod_le _ _).trans hlen }

/-- What DECODE leaves in the DEC_* and FILT_* registers: no header beside an error, and no verdict (41_codec.md R176). -/
theorem decodeRegisters_cleared (r : FrameResult) :
    ((decodeRegisters r).code ≠ .ok →
      (decodeRegisters r).toAddr = 0#8 ∧ (decodeRegisters r).fromAddr = 0#8 ∧ (decodeRegisters r).id = 0#8 ∧
        (decodeRegisters r).flags = 0#8 ∧ (decodeRegisters r).len = 0#8) ∧
      (decodeRegisters r).filtValid = false ∧ (decodeRegisters r).filtAccept = false := by
  cases r with
  | frame f => exact ⟨fun hc => absurd rfl hc, rfl, rfl⟩
  | error e => exact ⟨fun _ => ⟨rfl, rfl, rfl, rfl, rfl⟩, rfl, rfl⟩

theorem execDecode_keeps_inv {s t : State} (h : Inv s) (ht : execDecode s = .next t) : Inv t := by
  unfold execDecode at ht
  split at ht
  · cases ht
    exact setResult_keeps_inv h _
  · cases ht
    obtain ⟨hheader, hvalid, haccept⟩ := decodeRegisters_cleared (decodeFrame s.cfg s.conf.sync s.rxImage)
    refine setResult_keeps_inv ?_ .ok
    exact { h with
      decoded := hheader
      verdict := ⟨fun hv => absurd (hvalid.symm.trans hv) (by decide),
        fun ha => absurd (haccept.symm.trans ha) (by decide)⟩ }

theorem execFilter_keeps_inv {s t : State} (h : Inv s) (ht : execFilter s = .next t) : Inv t := by
  unfold execFilter at ht
  split at ht <;> cases ht
  · refine setResult_keeps_inv ?_ .ok
    exact { h with verdict := ⟨nofun, nofun⟩ }
  · rename_i hcode
    refine setResult_keeps_inv ?_ .ok
    exact { h with verdict := ⟨fun _ => not_not.mp hcode, fun _ => rfl⟩ }

theorem execSendReliable_keeps_inv {s t : State} (h : Inv s) (dest maxRetries : Byte)
    (ht : execSendReliable dest maxRetries s = .next t) : Inv t := by
  unfold execSendReliable at ht
  split at ht <;> cases ht
  · exact setResult_keeps_inv h _
  · rename_i hacc
    exact acceptReliable_keeps_inv h hacc dest maxRetries

theorem execSendUnreliable_keeps_inv {s t : State} (h : Inv s) (dest : Byte)
    (ht : execSendUnreliable dest s = .next t) : Inv t := by
  unfold execSendUnreliable at ht
  split at ht <;> cases ht
  · exact setResult_keeps_inv h _
  · rename_i hacc
    obtain ⟨-, -, hidle, -⟩ := (sendRefusal_eq_none_iff s).mp hacc
    have halloc : Inv s.allocId := inv_of_unconstrained h ..
    exact setResult_keeps_inv (sendOnce_keeps_inv halloc hidle _ _) _

theorem execRxqPop_keeps_inv {s t : State} (h : Inv s) (ht : execRxqPop s = .next t) : Inv t := by
  obtain ⟨hpeer, hlast, hout⟩ := h.readings
  unfold execRxqPop at ht
  split at ht <;> cases ht
  · refine setResult_keeps_inv ?_ .empty
    exact { h with readings := ⟨hpeer, hlast, hout⟩ }
  · rename_i record rest hq
    obtain ⟨-, -, hrssi⟩ := h.records record (by simp [hq])
    have hcount : rest.length + 1 ≤ s.cfg.rxqDepth := by simpa [State.rxqCount, hq] using h.queueBound
    have hpopped : Inv { s with rxq := rest, rxqOut := ⟨record.fromAddr, record.len, record.rssi, true⟩ } :=
      { h with
        queueBound := Nat.le_of_succ_le hcount
        records := fun r hr => h.records r (hq ▸ List.mem_cons_of_mem _ hr)
        readings := ⟨hpeer, hlast, hrssi⟩ }
    exact setResult_keeps_inv (fillBuffer_keeps_inv hpopped _ _) _

theorem exec_keeps_inv (i : Instr) {s t : State} (h : Inv s) (ht : exec i s = .next t) : Inv t := by
  cases i with
  | nop => cases ht; exact inv_of_unconstrained h ..
  | crcInit => cases ht; exact inv_of_unconstrained h ..
  | crcByte byte => cases ht; exact inv_of_unconstrained h ..
  | crcCheck => cases ht; exact inv_of_unconstrained h ..
  | setAddr self promiscuous => exact execSetAddr_keeps_inv h self promiscuous ht
  | setSync => cases ht; exact inv_of_unconstrained h ..
  | encode => exact execEncode_keeps_inv h ht
  | decode => exact execDecode_keeps_inv h ht
  | filter => exact execFilter_keeps_inv h ht
  | sendReliable dest maxRetries => exact execSendReliable_keeps_inv h dest maxRetries ht
  | sendUnreliable dest => exact execSendUnreliable_keeps_inv h dest ht
  | stop => exact execStop_keeps_inv h ht
  | rxqPop => exact execRxqPop_keeps_inv h ht

/-! ### The events and the step -/

/-- The reset values have the invariant, whatever the parameters in their ranges (10_state.md R48). -/
theorem inv_cleared (p : Params) (hp : p.wellFormed) : Inv (State.cleared p) where
  params := hp
  canonical := rfl
  inBuffers := nofun
  notTransient := ⟨nofun, nofun⟩
  attempts := BitVec.le_refl _
  awaiting := nofun
  pendingIffBusy := ⟨nofun, nofun⟩
  timeoutWidth := Nat.two_pow_pos _
  remainBound := BitVec.le_refl _
  imageBound := Nat.zero_le _
  queueBound := Nat.zero_le _
  records := nofun
  readings := by
    refine ⟨fun a => ?_, Nat.two_pow_pos _, Nat.two_pow_pos _⟩
    simp [State.peerAt, State.cleared, PeerEntry.empty]
  stopped := nofun
  fatal := nofun
  wireTxBound := Nat.zero_le _
  decoded := fun _ => ⟨rfl, rfl, rfl, rfl, rfl⟩
  verdict := ⟨nofun, nofun⟩

/-- Both outcomes of RESET: the reset values, and those with FATAL set and nothing run (70_reset_and_hazards.md R350,
R351). -/
theorem resetEvent_keeps_inv {s : State} (h : Inv s) : Inv s.resetEvent := by
  have hcleared := inv_cleared s.cfg h.params
  cases hinit : s.initAnswer with
  | true =>
    rw [resetEvent_of_init s hinit]
    exact inv_of_unconstrained hcleared ..
  | false =>
    rw [resetEvent_of_not_init s hinit]
    exact { hcleared with stopped := nofun, fatal := fun _ => ⟨rfl, rfl⟩ }

theorem handle_keeps_inv (e : Event) {s t : State} (h : Inv s) (ht : s.handle e = .next t) : Inv t := by
  have hreplied : Inv { s with busReply := .written } := inv_of_unconstrained h ..
  rcases handle_cases e s t ht with
    ⟨-, -, i, -, -, -, hexec⟩ | ⟨-, -, -, -, -, -, rfl⟩ | ⟨addr, w, r, -, hloc, -, rfl⟩ | ⟨-, -, -, -, rfl⟩ |
    ⟨-, rfl⟩ | ⟨-, rfl⟩ | ⟨-, rfl⟩
  · exact exec_keeps_inv i hreplied hexec
  · exact inv_of_unconstrained h ..
  · exact storeReg_keeps_inv hreplied addr 4 r w hloc
  · exact inv_of_unconstrained h ..
  · exact tick_keeps_inv h
  · exact iterate_keeps_inv h
  · exact resetEvent_keeps_inv h

/-- The block goes on after an error response with no register changed (60_exceptions.md R329; log 6). -/
theorem proceed_keeps_inv (e : Event) {s : State} (h : Inv s) : Inv (s.proceed e) := by
  unfold State.proceed
  split
  · rename_i ht
    exact handle_keeps_inv e h ht
  · exact inv_of_unconstrained h ..
  · exact h

theorem step_keeps_inv {s t : State} (h : Inv s) (ht : step s = .next t) : Inv t := by
  rcases step_cases s t ht with ⟨-, rfl⟩ | ⟨e, rest, -, hhandle⟩
  · exact h
  · exact handle_keeps_inv e (inv_of_unconstrained h ..) hhandle

theorem resume_keeps_inv {s : State} (h : Inv s) : Inv s.resume := by
  unfold State.resume
  split
  · exact h
  · exact proceed_keeps_inv _ (inv_of_unconstrained h ..)

/-- Settles O59, from one preservation lemma for every event (`handle_keeps_inv`) and one for an access answered with
an error (`proceed_keeps_inv`). -/
theorem stepKeepsInv : Obligations.StepKeepsInv :=
  ⟨fun _ _ => step_keeps_inv, fun _ => resume_keeps_inv⟩

end Sys2Proof.Machine
end

section
/-! Who writes the configuration and the run-control bits (10_state.md R33, R34): what one command, one ITERATE and one
event do to them, said once; both statements about the writers are read off the last. -/

namespace Sys2Proof.Machine

/-- What a command does to the configuration and to the run-control bits: SET_ADDR writes SELF and PROMISC, SET_SYNC
writes SYNC, STOP sets STOP_REQ, and every other command leaves them alone (10_state.md R33, R34). -/
theorem exec_conf_run_cases (i : Instr) (s t : State) (h : exec i s = .next t) :
    (t.conf = s.conf ∧ t.run = s.run) ∨
    (∃ self promiscuous, i = .setAddr self promiscuous ∧ t.conf = ⟨self, promiscuous, s.conf.sync⟩ ∧ t.run = s.run) ∨
    (i = .setSync ∧ t.conf = ⟨s.conf.self, s.conf.promisc, s.argLow⟩ ∧ t.run = s.run) ∨
    (i = .stop ∧ t.conf = s.conf ∧ t.run = ⟨s.run.fatal, true, s.run.stopped⟩) := by
  cases i with
  | nop => cases h; exact Or.inl ⟨rfl, rfl⟩
  | crcInit => cases h; exact Or.inl ⟨rfl, rfl⟩
  | crcByte byte => cases h; exact Or.inl ⟨rfl, rfl⟩
  | crcCheck => cases h; exact Or.inl ⟨rfl, rfl⟩
  | setAddr self promiscuous =>
    simp only [exec, execSetAddr] at h
    split at h <;> cases h
    · exact Or.inr (Or.inl ⟨self, promiscuous, rfl, rfl, rfl⟩)
    · exact Or.inl ⟨rfl, rfl⟩
  | setSync => cases h; exact Or.inr (Or.inr (Or.inl ⟨rfl, rfl, rfl⟩))
  | encode => simp only [exec, execEncode] at h; split at h <;> cases h <;> exact Or.inl ⟨rfl, rfl⟩
  | decode => simp only [exec, execDecode] at h; split at h <;> (cases h; exact Or.inl ⟨rfl, rfl⟩)
  | filter => simp only [exec, execFilter] at h; split at h <;> cases h <;> exact Or.inl ⟨rfl, rfl⟩
  | sendReliable dest maxRetries =>
    simp only [exec, execSendReliable] at h
    split at h <;> cases h
    · exact Or.inl ⟨rfl, rfl⟩
    · rw [acceptReliable_frame]; exact Or.inl ⟨rfl, rfl⟩
  | sendUnreliable dest =>
    simp only [exec, execSendUnreliable] at h; split at h <;> cases h <;> exact Or.inl ⟨rfl, rfl⟩
  | stop => cases h; exact Or.inr (Or.inr (Or.inr ⟨rfl, rfl, rfl⟩))
  | rxqPop => simp only [exec, execRxqPop] at h; split at h <;> cases h <;> exact Or.inl ⟨rfl, rfl⟩

/-- An ITERATE leaves the run-control bits alone, or finds the stop flag set and no send pending and sets STOPPED
(44_receive.md R260, R261). -/
theorem iterate_run_cases (s : State) :
    s.iterate.run = s.run ∨
    (s.run.stopReq = true ∧ s.pend.state ≠ .awaitingAck ∧ s.iterate.run = ⟨s.run.fatal, s.run.stopReq, true⟩) := by
  rcases iterate_cases s with ⟨-, h⟩ | ⟨-, hstop, hidle, h⟩ | ⟨-, -, h⟩ <;> rw [h]
  · exact Or.inl rfl
  · exact Or.inr ⟨hstop, hidle, rfl⟩
  · rw [timeoutCheck_frame, poll_frame]; exact Or.inl rfl

/-- What an event other than RESET does to the configuration and to the run-control bits: nothing, what the one command
it writes to CMD does to them, or the exit of the polling loop (10_state.md R33, R34). -/
theorem handle_conf_run_cases (e : Event) (s t : State) (h : s.handle e = .next t) (hreset : e ≠ .reset) :
    (t.conf = s.conf ∧ t.run = s.run) ∨
    (∃ addr w self promiscuous, e = .hostWrite addr 4 w ∧ decode w = .command (.setAddr self promiscuous) ∧
      t.conf = ⟨self, promiscuous, s.conf.sync⟩ ∧ t.run = s.run) ∨
    (∃ addr w, e = .hostWrite addr 4 w ∧ decode w = .command .setSync ∧
      t.conf = ⟨s.conf.self, s.conf.promisc, s.argLow⟩ ∧ t.run = s.run) ∨
    (∃ addr w, e = .hostWrite addr 4 w ∧ decode w = .command .stop ∧
      t.conf = s.conf ∧ t.run = ⟨s.run.fatal, true, s.run.stopped⟩) ∨
    (e = .iterate ∧ s.run.stopReq = true ∧ s.pend.state ≠ .awaitingAck ∧
      t.conf = s.conf ∧ t.run = ⟨s.run.fatal, s.run.stopReq, true⟩) := by
  rcases handle_cases e s t h with
    ⟨addr, w, i, he, -, hw, hexec⟩ | ⟨-, -, -, -, -, -, rfl⟩ | ⟨-, -, -, -, -, -, rfl⟩ | ⟨-, -, -, -, rfl⟩ |
    ⟨-, rfl⟩ | ⟨he, rfl⟩ | ⟨he, -⟩
  · rcases exec_conf_run_cases i _ t hexec with
      hsame | ⟨self, promiscuous, rfl, hconf, hrun⟩ | ⟨rfl, hconf, hrun⟩ | ⟨rfl, hconf, hrun⟩
    · exact Or.inl hsame
    · exact Or.inr (Or.inl ⟨addr, w, self, promiscuous, he, hw, hconf, hrun⟩)
    · exact Or.inr (Or.inr (Or.inl ⟨addr, w, he, hw, hconf, hrun⟩))
    · exact Or.inr (Or.inr (Or.inr (Or.inl ⟨addr, w, he, hw, hconf, hrun⟩)))
  · exact Or.inl ⟨rfl, rfl⟩
  · rw [storeReg_frame]; exact Or.inl ⟨rfl, rfl⟩
  · exact Or.inl ⟨rfl, rfl⟩
  · rcases tick_cases s with ⟨-, -, ht⟩ | ⟨-, ht⟩ <;> rw [ht] <;> exact Or.inl ⟨rfl, rfl⟩
  · have hconf : s.iterate.conf = s.conf := by rw [iterate_frame]
    rcases iterate_run_cases s with hrun | ⟨hstop, hidle, hrun⟩
    · exact Or.inl ⟨hconf, hrun⟩
    · exact Or.inr (Or.inr (Or.inr (Or.inr ⟨he, hstop, hidle, hconf, hrun⟩)))
  · exact absurd he hreset

/-- Both outcomes of RESET give the configuration its reset value (10_state.md R48; 70_reset_and_hazards.md R350,
R351). -/
theorem resetEvent_conf (s : State) : s.resetEvent.conf = ⟨s.cfg.selfReset, false, s.cfg.syncReset⟩ := by
  cases hinit : s.initAnswer with
  | true => rw [resetEvent_of_init s hinit]; rfl
  | false => rw [resetEvent_of_not_init s hinit]; rfl

/-- Settles O29: of the cases of `handle_conf_run_cases`, only SET_ADDR's changes SELF or PROMISC and only SET_SYNC's
changes SYNC. -/
theorem configurationWriters : Obligations.ConfigurationWriters := by
  intro e s t h
  refine ⟨?_, fun hreset => ?_⟩
  · rintro rfl
    cases h
    exact resetEvent_conf s
  · rcases handle_conf_run_cases e s t h hreset with
      ⟨hconf, -⟩ | ⟨addr, w, self, promiscuous, he, hw, hconf, -⟩ | ⟨addr, w, he, hw, hconf, -⟩ |
      ⟨-, -, -, -, hconf, -⟩ | ⟨-, -, -, hconf, -⟩ <;> rw [hconf]
    · simp
    · exact ⟨fun _ => ⟨addr, w, self, promiscuous, he, hw⟩, fun hsync => absurd rfl hsync⟩
    · exact ⟨by simp, fun _ => ⟨addr, w, he, hw⟩⟩
    · simp
    · simp

/-- Settles O32: of the cases of `handle_conf_run_cases`, only STOP's sets STOP_REQ, only the loop's exit sets STOPPED,
and none clears a bit or writes FATAL. -/
theorem runBitsWriters : Obligations.RunBitsWriters := by
  intro e s t h hreset
  rcases handle_conf_run_cases e s t h hreset with
    ⟨-, hrun⟩ | ⟨-, -, -, -, -, -, -, hrun⟩ | ⟨-, -, -, -, -, hrun⟩ | ⟨addr, w, he, hw, -, hrun⟩ |
    ⟨he, hstop, hidle, -, hrun⟩ <;> rw [hrun]
  · simp +contextual
  · simp +contextual
  · simp +contextual
  · exact ⟨rfl, fun _ => rfl, id, fun _ _ => ⟨addr, w, he, hw⟩, by simp +contextual⟩
  · exact ⟨rfl, id, fun _ => rfl, by simp +contextual, fun _ _ => ⟨he, hstop, hidle⟩⟩

end Sys2Proof.Machine
end

section
/-! The state right after a successful RESET (10_state.md R48; 70_reset_and_hazards.md R352): its registers and the
invariant. -/

namespace Sys2Proof.Machine

/-- Every buffer word reads 0 after reset (10_state.md R48). -/
theorem bufferWord_afterReset (p : Params) (b : Buffer) (m : Nat) : (State.afterReset p).bufferWord b m = 0#32 := by
  simp [State.bufferWord, State.bufferByte, State.afterReset, State.cleared, Memory.read, Memory.unlisted, wordOfLanes]

/-- Every entry of PEER is untouched after reset (10_state.md R39, R48). -/
theorem peerAt_afterReset (p : Params) (a : Byte) : (State.afterReset p).peerAt a = PeerEntry.empty := by
  simp [State.peerAt, State.afterReset, State.cleared]

/-- The queue is empty after reset, and its depth is at least 1 (00_scope.md R15), so RXQ_FULL is 0. -/
theorem rxqFull_afterReset (p : Params) (hdepth : 1 ≤ p.rxqDepth) : (State.afterReset p).rxqFull = false :=
  beq_eq_false_iff_ne.mpr (Nat.ne_of_lt hdepth)

/-- No send is pending after reset, so BUSY is 0. -/
theorem busyBit_afterReset (p : Params) : (State.afterReset p).busyBit = false := rfl

/-- STATUS reads 0 after reset (20_memory.md R82). -/
theorem statusWord_afterReset (p : Params) (hdepth : 1 ≤ p.rxqDepth) : (State.afterReset p).statusWord = 0#32 := by
  rw [State.statusWord, rxqFull_afterReset p hdepth, busyBit_afterReset]
  simp [State.rxqNonempty, State.rxqCount, State.afterReset, State.cleared, PState.code]

/-- CONFIG reads SYNC and SELF with PROMISC and the reserved bits 0 after reset (10_state.md R33; 20_memory.md R81). -/
theorem view_config_afterReset (p : Params) :
    (State.afterReset p).view .config = p.syncReset ++ 0#8 ++ p.selfReset := by
  have hzero : p.syncReset ++ 0#7 ++ 0#1 = p.syncReset ++ 0#8 := BitVec.append_assoc
  simp only [State.view]
  exact congrArg (· ++ p.selfReset) hzero

/-- Settles O57, register by register: STATUS, CONFIG, PEERW and the buffers by the lemmas above, every other register
from the literals of R48. -/
theorem registersAfterReset : Obligations.RegistersAfterReset := by
  intro p off r hp _
  cases r with
  | status =>
    obtain ⟨-, -, -, -, -, -, hdepth, -⟩ := hp
    exact statusWord_afterReset p hdepth
  | config => exact view_config_afterReset p
  | peerW a => simp [State.view, peerAt_afterReset, PeerEntry.empty, peerWord]
  | bufferWord b m => exact bufferWord_afterReset p b m
  | _ =>
    simp [State.view, State.afterReset, State.cleared, State.crcFinal, State.rxqCount, CmdResult.code, SrCode.code,
      DecCode.code]

/-- No clause of the invariant speaks of the trace and the answers, in which the state after a successful RESET differs
from the reset values. -/
theorem inv_afterReset (p : Params) (hp : p.wellFormed) : Inv (State.afterReset p) :=
  inv_of_unconstrained (inv_cleared p hp) ..

/-- Settles O58; the parameters of `State.reset` lie in their ranges. -/
theorem invAfterReset : Obligations.InvAfterReset :=
  ⟨inv_afterReset, inv_afterReset Config.params (by decide)⟩

end Sys2Proof.Machine
end

section
/-! The register space (20_memory.md): where the fields of a register word lie, which offset reaches which register,
what a register reads after a write to it or to another. -/

namespace Sys2Proof.Machine

/-! ### The fields of a register word

A register word is a concatenation of its fields. The result type is left out of the index, so that the laws match a
word of literal width 32. -/

/-- Bits above the lower part of a concatenation lie in its upper part. -/
@[simp] theorem extractLsb'_append_of_le {n m : Nat} (x : BitVec n) (y : BitVec m) (k w : Nat) (h : m ≤ k) :
    BitVec.extractLsb' k w (HAppend.hAppend (γ := BitVec (no_index _)) x y) = x.extractLsb' (k - m) w := by
  ext i hi
  rw [BitVec.getElem_extractLsb', BitVec.getElem_extractLsb', BitVec.getLsbD_append, if_neg (by omega),
    Nat.sub_add_comm h]

/-- Bits below the upper part of a concatenation lie in its lower part. -/
@[simp] theorem extractLsb'_append_of_add_le {n m : Nat} (x : BitVec n) (y : BitVec m) (k w : Nat) (h : k + w ≤ m) :
    BitVec.extractLsb' k w (HAppend.hAppend (γ := BitVec (no_index _)) x y) = y.extractLsb' k w := by
  ext i hi
  rw [BitVec.getElem_extractLsb', BitVec.getElem_extractLsb', BitVec.getLsbD_append, if_pos (by omega)]

/-- A bit above the lower part of a concatenation lies in its upper part. -/
@[simp] theorem getElem_append_of_le {n m : Nat} (x : BitVec n) (y : BitVec m) (k : Nat) (hk : k < n + m) (h : m ≤ k) :
    (HAppend.hAppend (γ := BitVec (no_index _)) x y)[k] = x[k - m] := by
  rw [BitVec.getElem_append, dif_neg (by omega)]

/-- A bit below the upper part of a concatenation lies in its lower part. -/
@[simp] theorem getElem_append_of_lt {n m : Nat} (x : BitVec n) (y : BitVec m) (k : Nat) (hk : k < n + m) (h : k < m) :
    (HAppend.hAppend (γ := BitVec (no_index _)) x y)[k] = y[k] := by
  rw [BitVec.getElem_append, dif_pos h]

/-- A field with zeros above it is the field, widened. -/
theorem zero_append_eq_setWidth {n m : Nat} (x : BitVec m) : 0#n ++ x = x.setWidth (n + m) := by
  rw [BitVec.setWidth_eq_append (Nat.le_add_left m n)]
  simp

/-- Keeping the low `m` bits of a word is masking it. -/
theorem zero_append_extractLsb'_eq_and {n m : Nat} (v : BitVec (n + m)) :
    0#n ++ v.extractLsb' 0 m = v &&& BitVec.ofNat (n + m) (2 ^ m - 1) := by
  apply BitVec.eq_of_getLsbD_eq
  intro i hi
  rw [BitVec.getLsbD_and, BitVec.getLsbD_ofNat, Nat.testBit_two_pow_sub_one, BitVec.getLsbD_append]
  by_cases h : i < m
  · simp [h, hi]
  · simp [h]

/-- The four byte lanes of a word put it together again (20_memory.md R85). -/
theorem wordOfLanes_lanes (v : Word) :
    wordOfLanes (v.extractLsb' 0 8) (v.extractLsb' 8 8) (v.extractLsb' 16 8) (v.extractLsb' 24 8) = v := by
  have h32 : v.extractLsb' 24 8 ++ v.extractLsb' 16 8 = v.extractLsb' 16 16 :=
    BitVec.extractLsb'_append_extractLsb'_eq_extractLsb' rfl
  have h321 : v.extractLsb' 16 16 ++ v.extractLsb' 8 8 = v.extractLsb' 8 24 :=
    BitVec.extractLsb'_append_extractLsb'_eq_extractLsb' rfl
  rw [wordOfLanes, h32, h321, BitVec.extractLsb'_append_extractLsb'_eq_extractLsb' (by rfl)]
  exact BitVec.extractLsb'_eq_self

/-! ### The register map -/

/-- The offset of a register (20_memory.md R81). -/
def Reg.offset : Reg → Nat
  | .peerW a => 0x400 + 4 * a.toNat
  | .bufferWord b m => b.start + 4 * m
  | r => ((singleRegs.find? fun e => e.2 == r).map Prod.fst).getD 0

/-- Which register lies at a mapped offset: a single register, an entry of PEERW or a word of a buffer (20_memory.md
R81). -/
theorem regAt_cases (off : Nat) (r : Reg) (h : regAt off = some r) :
    (off, r) ∈ singleRegs ∨ (0x400 ≤ off ∧ off < 0x800 ∧ r = .peerW (BitVec.ofNat 8 ((off - 0x400) / 4))) ∨
      ∃ b m, r = .bufferWord b m := by
  unfold regAt at h
  split at h
  · obtain ⟨e, he, hr⟩ := Option.map_eq_some_iff.mp h
    have hoff : e.1 = off := by simpa using List.find?_some he
    exact Or.inl (hoff ▸ hr ▸ List.mem_of_find?_eq_some he)
  split at h
  · exact Or.inr (Or.inl ⟨by omega, by omega, (Option.some.inj h).symm⟩)
  · refine Or.inr (Or.inr ?_)
    iterate 4
      split at h
      · exact ⟨_, _, (Option.some.inj h).symm⟩
    cases h

/-- The register at an aligned offset has that offset, so no register lies at two offsets. -/
theorem offset_of_regAt (off : Nat) (r : Reg) (h : regAt off = some r) (h4 : off % 4 = 0) : r.offset = off := by
  rcases regAt_cases off r h with hsingle | ⟨hlo, hhi, rfl⟩ | ⟨b, m, rfl⟩
  · exact (by decide : ∀ e ∈ singleRegs, e.2.offset = e.1) _ hsingle
  · simp only [Reg.offset, BitVec.toNat_ofNat]
    omega
  · obtain ⟨-, -, hm, hlo, -⟩ := regAt_bufferWord off b m h
    have hstart : b.start % 4 = 0 := by cases b <;> rfl
    simp only [Reg.offset]
    omega

/-- Every single register lies at its offset (20_memory.md R81). -/
theorem regAt_of_mem_singleRegs (e : Nat × Reg) (h : e ∈ singleRegs) :
    regAt e.1 = some e.2 ∧ e.1 % 4 = 0 ∧ e.1 < 4096 :=
  (by decide : ∀ e ∈ singleRegs, regAt e.1 = some e.2 ∧ e.1 % 4 = 0 ∧ e.1 < 4096) e h

/-- Every entry of PEERW lies at its offset (20_memory.md R81). -/
theorem regAt_peerWindow (a : Byte) : regAt (0x400 + 4 * a.toNat) = some (.peerW a) := by
  have ha : a.toNat < 256 := a.isLt
  unfold regAt
  rw [if_neg (by omega), if_pos (by omega), Nat.add_sub_cancel_left, Nat.mul_div_cancel_left _ (by decide),
    BitVec.ofNat_toNat, BitVec.setWidth_eq]

/-- Every word of a buffer lies at its offset (20_memory.md R81, R86). -/
theorem regAt_bufferStart_add (b : Buffer) (m : Nat) (h : 4 * m < b.size) :
    regAt (b.start + 4 * m) = some (.bufferWord b m) := by
  unfold regAt
  cases b <;> simp only [Buffer.start, Buffer.size, wireBuf] at h ⊢ <;> grind

/-! ### Host accesses -/

/-- An access of 4 bytes at a mapped offset reaches its register (20_memory.md R84). -/
theorem locate_of_regAt (p : Params) (off : Nat) (r : Reg) (h : regAt off = some r) (h4 : off % 4 = 0)
    (hl : off < 4096) : locate p (p.blockBase + off) 4 = .reg r := by
  unfold locate
  rw [if_neg (by omega), if_neg (by omega), Nat.add_sub_cancel_left, if_neg (by omega), h]

/-- A write at the offset of a register executes a command or stores into the register (20_memory.md R83, R84). -/
theorem hostWrite_of_regAt (s : State) (off : Nat) (r : Reg) (v : Word) (h : regAt off = some r) (h4 : off % 4 = 0)
    (hl : off < 4096) :
    s.handle (.hostWrite (s.cfg.blockBase + off) 4 v) =
      if r = .cmd then ({ s with busReply := .written } : State).executeCommand v
      else .next (({ s with busReply := .written } : State).storeReg r v) := by
  simp only [State.handle, State.hostWrite, locate_of_regAt s.cfg off r h h4 hl]

/-- A write to an RO register is ignored (20_memory.md R83). -/
theorem storeReg_of_readOnly (r : Reg) (v : Word) (s : State) (h : r.access = .readOnly) : s.storeReg r v = s := by
  simp only [State.storeReg, h]

/-- The RW registers: the data registers and the words of TXBUF and WIRE_RX (20_memory.md R81). -/
theorem readWrite_cases (r : Reg) (h : r.access = .readWrite) :
    r = .arg ∨ r = .txLen ∨ r = .hdr ∨ r = .rxLen ∨ ∃ b m, r = .bufferWord b m := by
  cases r with
  | arg | txLen | hdr | rxLen | bufferWord => simp
  | _ => cases h

/-- A write to a word of an RW buffer stores its four bytes (20_memory.md R83, R86). -/
theorem storeReg_bufferWord (b : Buffer) (m : Nat) (v : Word) (s : State)
    (h : (Reg.bufferWord b m).access = .readWrite) : s.storeReg (.bufferWord b m) v = s.storeBufferWord b m v := by
  cases b with
  | txBuf | wireRx => rfl
  | rxqData | wireTx => cases h

/-- A stored buffer word is read back (20_memory.md R86). -/
theorem bufferWord_storeBufferWord (b : Buffer) (m : Nat) (v : Word) (s : State) (hwf : Memory.wf s.mem = true) :
    (s.storeBufferWord b m v).bufferWord b m = v := by
  have hbyte : ∀ j < 4, (s.storeBufferWord b m v).bufferByte b (4 * m + j) = (lanesOfWord v).getD j 0#8 := by
    intro j hj
    rw [State.bufferByte, storeBufferWord_mem, ← Nat.add_assoc]
    exact Memory.read_writeBytes_inside _ _ _ _ hwf hj
  rw [State.bufferWord, ← Nat.add_zero (4 * m), hbyte 0 (by decide), hbyte 1 (by decide), hbyte 2 (by decide),
    hbyte 3 (by decide)]
  exact wordOfLanes_lanes v

/-- An RW register reads back as the written bits of its fields: TXLEN keeps [7:0] and RXLEN [9:0] (20_memory.md R83). -/
theorem view_storeReg_self (r : Reg) (v : Word) (s : State) (hwf : Memory.wf s.mem = true)
    (h : r.access = .readWrite) :
    (s.storeReg r v).view r = if r = .txLen then v &&& 0xFF#32 else if r = .rxLen then v &&& 0x3FF#32 else v := by
  rcases readWrite_cases r h with rfl | rfl | rfl | rfl | ⟨b, m, rfl⟩
  · rfl
  · exact zero_append_extractLsb'_eq_and (n := 24) (m := 8) v
  · rfl
  · exact zero_append_extractLsb'_eq_and (n := 22) (m := 10) v
  · rw [storeReg_bufferWord b m v s h]
    exact bufferWord_storeBufferWord b m v s hwf

/-- A register write shows in no other register outside the buffers (20_memory.md R83). -/
theorem view_storeReg_of_ne (r r' : Reg) (v : Word) (s : State) (h : r.access = .readWrite) (hne : r' ≠ r)
    (hbuf : ∀ b m, r' ≠ .bufferWord b m) : (s.storeReg r v).view r' = s.view r' := by
  rcases readWrite_cases r h with rfl | rfl | rfl | rfl | ⟨b, m, rfl⟩
  · cases r' with
    | arg => exact absurd rfl hne
    | _ => rfl
  · cases r' with
    | txLen => exact absurd rfl hne
    | _ => rfl
  · cases r' with
    | hdr => exact absurd rfl hne
    | _ => rfl
  · cases r' with
    | rxLen => exact absurd rfl hne
    | _ => rfl
  · rw [storeReg_bufferWord b m v s h]
    cases r' with
    | bufferWord b' m' => exact absurd rfl (hbuf b' m')
    | _ => rfl

/-- A register write leaves every byte of the buffers outside the register's word alone (20_memory.md R83, R86). -/
theorem read_storeReg_outside (r : Reg) (v : Word) (s : State) (a : Nat) (ha : a < r.offset ∨ r.offset + 4 ≤ a) :
    Memory.read (s.storeReg r v).mem a = Memory.read s.mem a := by
  rcases storeReg_cases r v s with ⟨d, h⟩ | ⟨b, m, rfl, -, h⟩ | ⟨-, h⟩ <;> rw [h]
  exact read_storeBufferWord_outside b m v s a ha

/-- A buffer word reads as before when its four bytes do (20_memory.md R86). -/
theorem bufferWord_congr (b : Buffer) (m : Nat) (s t : State)
    (h : ∀ a, b.start + 4 * m ≤ a → a < b.start + 4 * m + 4 → Memory.read t.mem a = Memory.read s.mem a) :
    t.bufferWord b m = s.bufferWord b m := by
  simp only [State.bufferWord, State.bufferByte]
  rw [h _ (by omega) (by omega), h _ (by omega) (by omega), h _ (by omega) (by omega), h _ (by omega) (by omega)]

/-- A register write shows in no register at another aligned offset (20_memory.md R83). -/
theorem view_storeReg_of_offset_ne (off off' : Nat) (r r' : Reg) (v : Word) (s : State) (h : r.access = .readWrite)
    (hr : regAt off = some r) (hr' : regAt off' = some r') (h4 : off % 4 = 0) (h4' : off' % 4 = 0) (hne : off' ≠ off) :
    (s.storeReg r v).view r' = s.view r' := by
  have hoff := offset_of_regAt off r hr h4
  have hoff' := offset_of_regAt off' r' hr' h4'
  by_cases hbuf : ∃ b m, r' = .bufferWord b m
  · obtain ⟨b, m, rfl⟩ := hbuf
    refine bufferWord_congr b m s _ fun a hlo hhi => read_storeReg_outside r v s a ?_
    simp only [Reg.offset] at hoff'
    omega
  · have hreg : r' ≠ r := fun heq => hne (by rw [← hoff, ← hoff', heq])
    exact view_storeReg_of_ne r r' v s h hreg fun b m heq => hbuf ⟨b, m, heq⟩

/-- No register shows the bus reply, which is the model's own (log 9). -/
theorem view_busReply (r : Reg) (reply : BusReply) (s : State) :
    ({ s with busReply := reply } : State).view r = s.view r := by
  cases r <;> rfl

/-- Settles O8: a read and a write reach the register at the offset (`hostRead_of_regAt`, `hostWrite_of_regAt`); what
the write stores is seen there, and no other offset sees it, because no two registers share a byte. -/
theorem registerAccessKinds : Obligations.RegisterAccessKinds := by
  intro s off r v hwf hl h4 hr
  have hwrite := hostWrite_of_regAt s off r v hr h4 hl
  refine ⟨hostRead_of_regAt s off r hr h4 hl, ?_, fun hro => ?_, fun hrw => ?_⟩
  · rintro rfl
    exact ⟨rfl, hwrite⟩
  · have hcmd : r ≠ .cmd := by rintro rfl; cases hro
    rw [hwrite, if_neg hcmd, storeReg_of_readOnly r v _ hro]
  · have hcmd : r ≠ .cmd := by rintro rfl; cases hrw
    rw [if_neg hcmd] at hwrite
    refine ⟨_, hwrite, storeReg_frame r v _, view_storeReg_self r v _ hwf hrw, fun off' r' h4' hne hr' => ?_,
      fun a ha => ?_⟩
    · rw [view_storeReg_of_offset_ne off off' r r' v _ hrw hr hr' h4 h4' hne, view_busReply]
    · rw [← offset_of_regAt off r hr h4] at ha
      exact read_storeReg_outside r v _ a ha

/-- Settles O9: STATUS is the concatenation of its bits, and each field of a concatenation is read off its place. -/
theorem statusBits : Obligations.StatusBits := by
  intro s
  have hbusy : s.busyBit = (s.pend.state == .awaitingAck) := rfl
  have hnonempty : s.rxqNonempty = decide (0 < s.rxq.length) := rfl
  have hfull : s.rxqFull = (s.rxq.length == s.cfg.rxqDepth) := rfl
  simp [State.view, State.statusWord, hbusy, hnonempty, hfull]

/-- A value below `2 ^ n` has no bit from `n` up. -/
theorem getLsbD_of_toNat_lt {x : Word} {n k : Nat} (hx : x.toNat < 2 ^ n) (hk : n ≤ k) : x.getLsbD k = false :=
  Nat.testBit_lt_two_pow (Nat.lt_of_lt_of_le hx (Nat.pow_le_pow_right (by decide) hk))

/-- RXQ_COUNT in [7:0] (10_state.md R40; 20_memory.md R81). -/
theorem view_rxqCount (s : State) : s.view .rxqCount = (BitVec.ofNat 8 s.rxq.length).setWidth 32 := by
  apply BitVec.eq_of_toNat_eq
  simp [State.view, State.rxqCount]

/-- Lane `j` of a buffer word is its byte `j` (20_memory.md R86). -/
theorem bufferWord_lane (s : State) (b : Buffer) (m j : Nat) (hj : j < 4) :
    (s.bufferWord b m).extractLsb' (8 * j) 8 = Memory.read s.mem (b.start + (4 * m + j)) := by
  interval_cases j <;> simp [State.bufferWord, State.bufferByte, wordOfLanes]

/-- A read at the offset of a buffer word answers it (20_memory.md R81, R86). -/
theorem reads_bufferWord (s : State) (b : Buffer) (m : Nat) (hm : 4 * m < b.size) :
    s.reads (b.start + 4 * m) (s.view (.bufferWord b m)) := by
  have hspace := b.within_space
  have hstart : b.start % 4 = 0 := by cases b <;> rfl
  exact hostRead_of_regAt s _ _ (regAt_bufferStart_add b m hm) (by omega) (by omega)

/-- Settles O10: the map by its three kinds of offsets, single registers, PEERW and buffer words; the registers of one
field as that field widened; the registers of several fields as the concatenation of them. -/
theorem registerLayouts : Obligations.RegisterLayouts := by
  refine ⟨fun s => ⟨?_, fun a => ?_, fun m hm => ⟨?_, ?_⟩, fun m hm => ⟨?_, ?_⟩⟩, fun s => ?_, fun s a b m => ?_,
    by decide⟩
  · intro e he
    obtain ⟨hreg, h4, hl⟩ := regAt_of_mem_singleRegs e he
    exact hostRead_of_regAt s e.1 e.2 hreg h4 hl
  · exact hostRead_of_regAt s _ _ (regAt_peerWindow a) (by omega) (by omega)
  · exact reads_bufferWord s .txBuf m (by simp only [Buffer.size]; omega)
  · exact reads_bufferWord s .rxqData m (by simp only [Buffer.size]; omega)
  · exact reads_bufferWord s .wireTx m (by simp only [Buffer.size, wireBuf]; omega)
  · exact reads_bufferWord s .wireRx m (by simp only [Buffer.size, wireBuf]; omega)
  · refine ⟨rfl, zero_append_eq_setWidth _, zero_append_eq_setWidth _, rfl, rfl, ?_, zero_append_eq_setWidth _,
      zero_append_eq_setWidth _, zero_append_eq_setWidth _, zero_append_eq_setWidth _, zero_append_eq_setWidth _, ?_,
      rfl, rfl, rfl, rfl, rfl, rfl, rfl⟩
    · intro hinv k hk
      have hremain : s.pend.remain.toNat < 2 ^ s.cfg.tW := Nat.lt_of_le_of_lt hinv.remainBound hinv.timeoutWidth
      exact ⟨getLsbD_of_toNat_lt hinv.timeoutWidth hk, getLsbD_of_toNat_lt hremain hk⟩
    · exact view_rxqCount s
  · refine ⟨?config, ?sendResult, ?pendA, ⟨rfl, rfl, rfl, rfl⟩, ?crcFinal, ?decStatus, ?decHdr, ?rxqOut, ?lastRssi,
      ?peerW, bufferWord_lane s b m⟩
    case crcFinal => simp [State.view, State.crcFinal]
    case peerW => simp [State.view, peerWord]
    all_goals simp [State.view]

end Sys2Proof.Machine
end

section
/-! The command encoding (30_encoding.md section 1): the decoder by the opcode map's rows, a row's word by its fields,
and what a CMD write executes. -/

namespace Sys2Proof.Machine

/-! ### The decoder, row by row -/

/-- Rows with the same opcode are the same row (30_encoding.md R114). -/
theorem row_eq_of_opField_eq {r r' : OpcodeRow} (hr : r ∈ opcodeTable) (hr' : r' ∈ opcodeTable)
    (h : opField r.value = opField r'.value) : r = r' :=
  List.inj_on_of_nodup_map (List.pairwise_map.mpr opcodeTable_distinct) hr hr' h

/-- A word that a row matches decodes to that row's command (30_encoding.md R112). -/
theorem decode_of_admits {r : OpcodeRow} {w : Word} (hr : r ∈ opcodeTable) (h : r.admits w = true) :
    decode w = .command (r.build (a8Field w) (b8Field w)) := by
  rcases decode_cases w with ⟨r', hr', h', hdec⟩ | ⟨hnone, -, -⟩ | ⟨hop, -⟩
  · obtain rfl : r = r' :=
      row_eq_of_opField_eq hr hr' ((opField_of_admits r w hr h).symm.trans (opField_of_admits r' w hr' h'))
    exact hdec
  · exact absurd h (by simp [hnone r hr])
  · exact absurd (opField_of_admits r w hr h).symm (hop r hr)

/-- A word that decodes to a command is matched by a row, which builds the command (30_encoding.md R112). -/
theorem admits_of_decode {w : Word} {i : Instr} (h : decode w = .command i) :
    ∃ r ∈ opcodeTable, r.admits w = true ∧ i = r.build (a8Field w) (b8Field w) := by
  rcases decode_cases w with ⟨r, hr, hw, hdec⟩ | ⟨-, -, hdec⟩ | ⟨-, hdec⟩ <;> rw [hdec] at h
  · exact ⟨r, hr, hw, (Decoded.command.inj h).symm⟩
  · exact absurd h (by simp)
  · exact absurd h (by simp)

/-- A word that no row matches is illegal (30_encoding.md R112). -/
theorem decode_of_not_admits {w : Word} (h : ∀ r ∈ opcodeTable, r.admits w = false) :
    ∃ why, decode w = .illegal why := by
  rcases decode_cases w with ⟨r, hr, hw, -⟩ | ⟨-, -, hdec⟩ | ⟨-, hdec⟩
  · exact absurd hw (by simp [h r hr])
  · exact ⟨_, hdec⟩
  · exact ⟨_, hdec⟩

/-! ### A command's word by its fields -/

/-- Every command's word is matched by the row of its mnemonic (30_encoding.md R114). -/
theorem encode_fits_row (i : Instr) : ∃ r ∈ opcodeTable, r.mnemonic = i.mnemonic ∧ r.admits (encode i) = true := by
  cases i with
  | nop => exact Laws.EncodeFitsRow.nop rfl
  | crcInit => exact Laws.EncodeFitsRow.crcInit rfl
  | crcByte byte => exact Laws.EncodeFitsRow.crcByte byte rfl
  | crcCheck => exact Laws.EncodeFitsRow.crcCheck rfl
  | setAddr self promiscuous => exact Laws.EncodeFitsRow.setAddr self promiscuous rfl
  | setSync => exact Laws.EncodeFitsRow.setSync rfl
  | encode => exact Laws.EncodeFitsRow.encode rfl
  | decode => exact Laws.EncodeFitsRow.decode rfl
  | filter => exact Laws.EncodeFitsRow.filter rfl
  | sendReliable dest maxRetries => exact Laws.EncodeFitsRow.sendReliable dest maxRetries rfl
  | sendUnreliable dest => exact Laws.EncodeFitsRow.sendUnreliable dest rfl
  | stop => exact Laws.EncodeFitsRow.stop rfl
  | rxqPop => exact Laws.EncodeFitsRow.rxqPop rfl

/-- The row of a command's mnemonic builds the command from the fields of its word (30_encoding.md R111, R114). -/
theorem build_encode (i : Instr) (r : OpcodeRow) (hr : r ∈ opcodeTable) (hm : r.mnemonic = i.mnemonic) :
    r.build (a8Field (encode i)) (b8Field (encode i)) = i := by
  revert r
  cases i with
  | setAddr self promiscuous => cases promiscuous <;> simp [opcodeTable, Instr.mnemonic, encode]
  | _ => simp [opcodeTable, Instr.mnemonic, encode]

/-- Settles O1: the row that matches a command's word is its mnemonic's, and that row builds the command back. -/
theorem decodeOfEncode : Obligations.DecodeOfEncode := by
  intro i
  obtain ⟨r, hr, hm, hw⟩ := encode_fits_row i
  rw [decode_of_admits hr hw, build_encode i r hr hm]

/-- A word that a row matches has the row's value in each byte, under the mask's byte (30_encoding.md R112). -/
theorem extractLsb'_and_mask_of_admits {r : OpcodeRow} {w : Word} (h : r.admits w = true) (k : Nat) :
    w.extractLsb' k 8 &&& r.mask.extractLsb' k 8 = r.value.extractLsb' k 8 := by
  rw [← (OpcodeRow.admits_iff r w).mp h, BitVec.extractLsb'_and]

/-- Every row's value is its opcode alone, and its mask covers RSV (30_encoding.md R111, R114). -/
theorem opcodeTable_fields (r : OpcodeRow) (hr : r ∈ opcodeTable) :
    a8Field r.value = 0#8 ∧ b8Field r.value = 0#8 ∧ r.value.extractLsb' 24 8 = 0#8 ∧
      r.mask.extractLsb' 24 8 = BitVec.allOnes 8 := by
  revert r
  decide

/-- A word with RSV = 0 is the word of its fields (30_encoding.md R111). -/
theorem commandWord_fields (w : Word) (h : w.extractLsb' 24 8 = 0#8) :
    commandWord (opField w) (a8Field w) (b8Field w) = w := by
  have hw := wordOfLanes_lanes w
  rwa [h] at hw

/-- A mask of eight ones keeps the byte. -/
theorem byte_and_0xFF (b : Byte) : b &&& 0xFF#8 = b := BitVec.and_allOnes

/-- A byte that is 0 under the mask of SET_ADDR's B8 is its bit 0 (30_encoding.md R114). -/
theorem flagByte_of_masked (b : Byte) (h : b &&& 0xFE#8 = 0#8) : 0#7 ++ BitVec.ofBool b[0] = b := by
  have hsplit : b &&& 0x01#8 ||| b &&& 0xFE#8 = b := by
    rw [← BitVec.and_or_distrib_left]
    exact byte_and_0xFF b
  have hbit : BitVec.ofBool b[0] = b.extractLsb' 0 1 := by
    ext i hi
    obtain rfl : i = 0 := by omega
    simp
  rw [h, BitVec.or_zero] at hsplit
  rw [hbit]
  exact (zero_append_extractLsb'_eq_and (n := 7) (m := 1) b).trans hsplit

/-- The word of what a row builds is the row's opcode and the fields, where the fields are 0 under the row's mask
(30_encoding.md R114). Row by row: a field that the mask covers is 0, as `encode` writes it; a field that it leaves open
is an operand; and of SET_ADDR's B8 it leaves bit 0 open. -/
theorem encode_build (r : OpcodeRow) (hr : r ∈ opcodeTable) (a8 b8 : Byte) (ha : a8 &&& a8Field r.mask = 0#8)
    (hb : b8 &&& b8Field r.mask = 0#8) : encode (r.build a8 b8) = commandWord (opField r.value) a8 b8 := by
  revert r
  simp +contextual [opcodeTable, encode, opField, a8Field, b8Field, byte_and_0xFF, flagByte_of_masked]

/-- Settles O2: a word that a row matches is the word of its fields, and so is the command the row builds from them. -/
theorem encodeOfDecode : Obligations.EncodeOfDecode := by
  intro w i h
  obtain ⟨r, hr, hw, rfl⟩ := admits_of_decode h
  obtain ⟨ha, hb, hv, hm⟩ := opcodeTable_fields r hr
  have hrsv := extractLsb'_and_mask_of_admits hw 24
  rw [hv, hm, BitVec.and_allOnes] at hrsv
  have hword : encode (r.build (a8Field w) (b8Field w)) = commandWord (opField r.value) (a8Field w) (b8Field w) :=
    encode_build r hr _ _ ((extractLsb'_and_mask_of_admits hw 8).trans ha)
      ((extractLsb'_and_mask_of_admits hw 16).trans hb)
  rw [hword, ← opField_of_admits r w hr hw, commandWord_fields w hrsv]

/-! ### What a CMD write executes -/

/-- A word that decodes to a command runs it (30_encoding.md R112). -/
theorem executeCommand_of_command {w : Word} {i : Instr} (h : decode w = .command i) (s : State) :
    s.executeCommand w = exec i s := by
  simp only [State.executeCommand, h]

/-- An illegal word writes ILLEGAL_CMD and changes nothing else (30_encoding.md R112). -/
theorem executeCommand_of_illegal {w : Word} {why : IllegalWord} (h : decode w = .illegal why) (s : State) :
    s.executeCommand w = .next { s with cmdResult := .illegalCmd } := by
  simp only [State.executeCommand, h, State.setResult]

/-- A test that no two elements of a list pass leaves at most one of them. -/
theorem length_filter_le_one {α : Type} (p : α → Bool) (l : List α)
    (h : l.Pairwise fun a b => ¬ (p a = true ∧ p b = true)) : (l.filter p).length ≤ 1 := by
  induction l with
  | nil => simp
  | cons a l ih =>
    obtain ⟨ha, hl⟩ := List.pairwise_cons.mp h
    by_cases hp : p a = true
    · have hnil : l.filter p = [] := List.filter_eq_nil_iff.mpr fun b hb hpb => ha b hb ⟨hp, hpb⟩
      simp [hp, hnil]
    · simpa [hp] using ih hl

/-- Settles O3: the rows' match sets are disjoint; a row that matches is the one decoded; without one, the word is
illegal. -/
theorem commandWordHasOneRow : Obligations.CommandWordHasOneRow := by
  refine fun w s => ⟨length_filter_le_one _ _ (opcodeTable_disjoint w), fun r hr hw => ?_, fun hnone => ?_⟩
  · exact executeCommand_of_command (decode_of_admits hr ((OpcodeRow.admits_iff r w).mpr hw)) s
  · obtain ⟨why, hdec⟩ := decode_of_not_admits fun r hr =>
      Bool.eq_false_iff.mpr fun hw => hnone r hr ((OpcodeRow.admits_iff r w).mp hw)
    exact executeCommand_of_illegal hdec s

/-- The OP values that 30_encoding.md R115 leaves unassigned. -/
def UnassignedOp (op : Byte) : Prop :=
  (0x04#8 ≤ op ∧ op ≤ 0x0F#8) ∨ (0x12#8 ≤ op ∧ op ≤ 0x1F#8) ∨ (0x23#8 ≤ op ∧ op ≤ 0x2F#8) ∨
    (0x32#8 ≤ op ∧ op ≤ 0x37#8) ∨ (0x39#8 ≤ op ∧ op ≤ 0x3F#8) ∨ 0x41#8 ≤ op

/-- No row has an unassigned OP (30_encoding.md R114, R115). -/
theorem opcodeTable_assigned (r : OpcodeRow) (hr : r ∈ opcodeTable) : ¬ UnassignedOp (opField r.value) := by
  revert r
  unfold UnassignedOp
  decide

/-- A word of an unassigned OP decodes to that cause (30_encoding.md R115). -/
theorem decode_of_unassignedOp {w : Word} (h : UnassignedOp (opField w)) : decode w = .illegal .unassignedOp := by
  have hop : ∀ r ∈ opcodeTable, opField r.value ≠ opField w := fun r hr he => opcodeTable_assigned r hr (he ▸ h)
  rcases decode_cases w with ⟨r, hr, hw, -⟩ | ⟨-, ⟨r, hr, he⟩, -⟩ | ⟨-, hdec⟩
  · exact absurd (opField_of_admits r w hr hw).symm (hop r hr)
  · exact absurd he (hop r hr)
  · exact hdec

/-- A word of a row's OP that the row does not match has a reserved bit set (30_encoding.md R115). -/
theorem decode_of_opField_not_admits {r : OpcodeRow} {w : Word} (hr : r ∈ opcodeTable)
    (hop : opField w = opField r.value) (hw : r.admits w ≠ true) : decode w = .illegal .reservedBits := by
  rcases decode_cases w with ⟨r', hr', hw', -⟩ | ⟨-, -, hdec⟩ | ⟨hnone, -⟩
  · obtain rfl : r = r' := row_eq_of_opField_eq hr hr' (hop.symm.trans (opField_of_admits r' w hr' hw'))
    exact absurd hw' hw
  · exact hdec
  · exact absurd hop.symm (hnone r hr)

/-- Settles O5: no row has an unassigned OP, and no row but the OP's own could match. -/
theorem reservedEncodingsAreIllegal : Obligations.ReservedEncodingsAreIllegal := by
  refine fun w s => ⟨fun h => ?_, fun r hr hop hw => ?_⟩
  · have hdec := decode_of_unassignedOp h
    exact ⟨hdec, executeCommand_of_illegal hdec s⟩
  · have hdec := decode_of_opField_not_admits hr hop (mt (OpcodeRow.admits_iff r w).mp hw)
    exact ⟨hdec, executeCommand_of_illegal hdec s⟩

/-- Settles O4: each word runs through the decoder. -/
theorem wordsOfTheSpecDecode : Obligations.WordsOfTheSpecDecode := by
  unfold Obligations.WordsOfTheSpecDecode
  decide

/-- A CMD write of a command's word runs the command on the state in which the bus has answered (30_encoding.md R110,
R112; 20_memory.md R84). -/
theorem handle_cmdWrite (s : State) {w : Word} {i : Instr} (h : decode w = .command i) :
    s.handle (s.cmdWrite w) = exec i { s with busReply := .written } := by
  simp only [State.handle, State.cmdWrite, State.hostWrite, locate_cmd, if_pos, executeCommand_of_command h]

/-- A step takes the oldest event placed (00_scope.md R20). -/
theorem step_of_events {s : State} {e : Event} {rest : List Event} (h : s.events = e :: rest) :
    step s = ({ s with events := rest } : State).handle e := by
  simp only [step, State.takeEvent, h]

/-- Settles O6: the step takes the CMD write, and a word of 32 bits is placed whole. -/
theorem stepRunsTheDecodedCommand : Obligations.StepRunsTheDecodedCommand := by
  refine ⟨fun s w i rest hev h => ?_, fun s w i h => ?_⟩
  · exact (step_of_events hev).trans (handle_cmdWrite { s with events := rest } h)
  · have hword : BitVec.ofNat 32 (w.toNat % 2 ^ 32) = w := by
      rw [Nat.mod_eq_of_lt w.isLt, BitVec.ofNat_toNat, BitVec.setWidth_eq]
    have hev : (s.withFetchWord 32 w.toNat).events = s.cmdWrite w :: s.events := by
      rw [State.withFetchWord, hword]
    exact (step_of_events hev).trans (handle_cmdWrite s h)

/-! ### CRC_BLOCK -/

/-- The block after a command's CMD write is what the command answers (30_encoding.md R110, R116). -/
theorem proceed_cmd (s : State) (i : Instr) {t : State} (h : exec i { s with busReply := .written } = .next t) :
    s.proceed (cmd s.cfg i) = t := by
  have hcmd : s.handle (cmd s.cfg i) = .next t := (handle_cmdWrite s (decodeOfEncode i)).trans h
  simp only [State.proceed, hcmd]

/-- One CRC_BYTE for each byte folds the bytes into CRC_ACC, and leaves CRC_MATCH and the parameters alone (40_crc.md
R151, R153). -/
theorem runEvents_crcBytes (bytes : List Byte) (s : State) :
    (s.runEvents (bytes.map fun b => cmd s.cfg (.crcByte b))).crc = ⟨crc16Fold s.crc.acc bytes, s.crc.matched⟩ ∧
      (s.runEvents (bytes.map fun b => cmd s.cfg (.crcByte b))).cfg = s.cfg := by
  induction bytes generalizing s with
  | nil => exact ⟨rfl, rfl⟩
  | cons b bytes ih =>
    have hb := proceed_cmd s (.crcByte b) rfl
    simp only [List.map_cons, State.runEvents, List.foldl_cons, hb]
    exact ih _

/-- Settles O15: CRC_INIT loads the start value of the fold that the CRC_BYTEs compute. -/
theorem crcBlockComputesCrc16 : Obligations.CrcBlockComputesCrc16 := by
  intro s bytes
  obtain ⟨t, ht, hacc, hp⟩ : ∃ t, exec .crcInit { s with busReply := .written } = .next t ∧
      t.crc = ⟨s.cfg.crcInitVal, false⟩ ∧ t.cfg = s.cfg := ⟨_, rfl, rfl, rfl⟩
  obtain ⟨hcrc, hcfg⟩ := runEvents_crcBytes bytes t
  have hrun : s.runEvents (crcBlock s.cfg bytes) = t.runEvents (bytes.map fun b => cmd t.cfg (.crcByte b)) := by
    rw [hp, ← proceed_cmd s .crcInit ht]
    rfl
  rw [hrun, State.crcFinal, hcrc, hcfg, hacc, hp]
  exact ⟨rfl, rfl⟩

end Sys2Proof.Machine
end

section
/-! The layout of a wire image, byte by byte (30_encoding.md R121, R122). -/

namespace Sys2Proof.Machine

/-- A byte of the first part of a sequence. -/
theorem byteAt_append_of_lt (xs ys : List Byte) (k : Nat) (h : k < xs.length) : byteAt (xs ++ ys) k = byteAt xs k :=
  List.getD_append xs ys _ k h

/-- A byte past the first part of a sequence. -/
theorem byteAt_append_add (xs ys : List Byte) (k : Nat) : byteAt (xs ++ ys) (xs.length + k) = byteAt ys k := by
  rw [byteAt, List.getD_append_right xs ys _ _ (by omega), Nat.add_sub_cancel_left, byteAt]

/-- `encode` answers the wire image when the payload fits (41_codec.md R170, R171). -/
theorem encodeFrame_eq_image (p : Params) (sync : Half) (t f i g : Byte) (payload image : List Byte)
    (h : encodeFrame p sync t f i g payload = .image image) : image = wireImage p sync t f i g payload := by
  unfold encodeFrame at h
  split at h
  · exact absurd h (by simp)
  · exact (EncodeResult.image.inj h).symm

/-- `encode` fails exactly on a payload longer than MAX_PAYLOAD (41_codec.md R171). -/
theorem encodeFrame_eq_payloadTooLong_iff (p : Params) (sync : Half) (t f i g : Byte) (payload : List Byte) :
    encodeFrame p sync t f i g payload = .payloadTooLong ↔ p.maxPayload < payload.length := by
  simp [encodeFrame]

section
variable (p : Params) (sync : Half) (t f i g : Byte) (payload : List Byte)

/-- What stands after the preamble: the sync word, the covered bytes and their CRC (30_encoding.md R121). -/
def imageTail : List Byte :=
  [highByte sync, lowByte sync] ++ (frameBody t f i g payload ++
    [lowByte (crc16 p (frameBody t f i g payload)), highByte (crc16 p (frameBody t f i g payload))])

/-- A wire image is its preamble, then its tail (30_encoding.md R121). -/
theorem wireImage_eq_append_tail : wireImage p sync t f i g payload =
    List.replicate p.preambleLen p.preambleByte ++ imageTail p sync t f i g payload :=
  wireImage_parts p sync t f i g payload

/-- The preamble's bytes (30_encoding.md R121). -/
theorem byteAt_wireImage_preamble (k : Nat) (h : k < p.preambleLen) :
    byteAt (wireImage p sync t f i g payload) k = p.preambleByte := by
  rw [wireImage_eq_append_tail, byteAt_append_of_lt _ _ _ (by simpa using h), byteAt, List.getD_replicate _ h]

/-- The bytes after the preamble are the tail's. -/
theorem byteAt_wireImage_add (k : Nat) :
    byteAt (wireImage p sync t f i g payload) (p.preambleLen + k) = byteAt (imageTail p sync t f i g payload) k := by
  simpa [wireImage_eq_append_tail] using
    byteAt_append_add (List.replicate p.preambleLen p.preambleByte) (imageTail p sync t f i g payload) k

/-- Past the sync word and the header come the payload and the CRC, low byte first (30_encoding.md R121). -/
theorem byteAt_imageTail_add (k : Nat) : byteAt (imageTail p sync t f i g payload) (7 + k) =
    byteAt (payload ++
      [lowByte (crc16 p (frameBody t f i g payload)), highByte (crc16 p (frameBody t f i g payload))]) k := by
  rw [Nat.add_comm]
  rfl

/-- The bytes that the CRC covers, cut out of the image (30_encoding.md R122). -/
theorem wireImage_covered : ((wireImage p sync t f i g payload).drop (p.preambleLen + 2)).take (5 + payload.length) =
    frameBody t f i g payload := by
  have hdrop : (wireImage p sync t f i g payload).drop (p.preambleLen + 2) =
      (imageTail p sync t f i g payload).drop 2 := by
    simp [wireImage_eq_append_tail, ← List.drop_drop]
  rw [hdrop]
  exact List.take_left' (frameBody_length t f i g payload)

end

/-- Settles O18: the bytes of preamble, tail, payload and CRC, each at its place. -/
theorem wireImageLayout : Obligations.WireImageLayout := by
  refine fun p sync t f i g payload => ⟨encodeFrame_eq_payloadTooLong_iff p sync t f i g payload, fun image h => ?_⟩
  obtain rfl := encodeFrame_eq_image p sync t f i g payload image h
  have htail := byteAt_wireImage_add p sync t f i g payload
  rw [wireImage_covered]
  refine ⟨wireImage_length p sync t f i g payload, byteAt_wireImage_preamble p sync t f i g payload, htail 0, htail 1,
    htail 2, htail 3, htail 4, htail 5, htail 6, fun k hk => ?_, ?_, ?_⟩
  · rw [Nat.add_assoc, htail, byteAt_imageTail_add, byteAt_append_of_lt _ _ _ hk]
  · rw [Nat.add_assoc, htail, byteAt_imageTail_add]
    exact byteAt_append_add payload _ 0
  · rw [show p.preambleLen + 8 + payload.length = p.preambleLen + (7 + (payload.length + 1)) by omega, htail,
      byteAt_imageTail_add]
    exact byteAt_append_add payload _ 1

end Sys2Proof.Machine
end

section
/-! The CRC unit (40_crc.md): the update by a byte and the residue, the commands' words, and what neither reads nor
writes the unit. -/

namespace Sys2Proof.Machine

/-! ### The shift register -/

/-- A shift is linear over XOR: where both bits shifted out are 1, the two 0xA001 cancel (40_crc.md R150). -/
theorem crc16Shift_xor (x y : Half) : crc16Shift (x ^^^ y) = crc16Shift x ^^^ crc16Shift y := by
  unfold crc16Shift
  rw [BitVec.getLsbD_xor, BitVec.ushiftRight_xor_distrib]
  cases x.getLsbD 0 <;> cases y.getLsbD 0 <;>
    simp only [Bool.xor_self, Bool.xor_false, Bool.false_xor, Bool.false_eq_true, if_true, if_false]
  · exact BitVec.xor_assoc ..
  · ac_rfl
  · rw [BitVec.xor_comm (y >>> 1), BitVec.xor_assoc, ← BitVec.xor_assoc 0xA001#16, BitVec.xor_self, BitVec.zero_xor]

/-- Any number of shifts is linear over XOR. -/
theorem crc16Shifts_xor (n : Nat) (x y : Half) : crc16Shifts n (x ^^^ y) = crc16Shifts n x ^^^ crc16Shifts n y := by
  induction n generalizing x y with
  | zero => rfl
  | succ n ih => rw [crc16Shifts, crc16Shift_xor, ih]; rfl

/-- Shifts that push only zeros out are a plain shift. -/
theorem crc16Shifts_of_low_zero (n : Nat) (x : Half) (h : ∀ i < n, x.getLsbD i = false) :
    crc16Shifts n x = x >>> n := by
  induction n generalizing x with
  | zero => simp [crc16Shifts]
  | succ n ih =>
    have hshift : crc16Shift x = x >>> 1 := if_neg (by simp only [h 0 (by omega), Bool.false_eq_true, not_false_iff])
    rw [crc16Shifts, hshift, ih (x >>> 1) fun i hi => ?_, ← BitVec.shiftRight_add, Nat.add_comm]
    rw [BitVec.getLsbD_ushiftRight]
    exact h (1 + i) (by omega)

/-- `n` shifts are the shift iterated `n` times. -/
theorem crc16Shifts_eq_iterate (n : Nat) (c : Half) : crc16Shifts n c = crc16Shift^[n] c := by
  induction n generalizing c with
  | zero => rfl
  | succ n ih => exact ih (crc16Shift c)

/-- The register with a byte XORed in is its high byte in place and, XORed to it, what stands in the low byte. -/
theorem xor_byte_eq_high_xor_low (c : Half) (b : Byte) :
    c ^^^ b.setWidth 16 = c >>> 8 <<< 8 ^^^ (c.extractLsb' 0 8 ^^^ b).setWidth 16 := by
  apply BitVec.eq_of_getLsbD_eq
  intro i hi
  by_cases h : i < 8
  · simp [h, hi]
  · have hbit : 8 + (i - 8) = i := by omega
    simp [h, hi, hbit]

/-- The update by a byte is a shift by a byte and the update of 0 by the table's index (40_crc.md R150). -/
theorem crc16Update_eq_shift_xor (c : Half) (b : Byte) :
    crc16Update c b = (c >>> 8) ^^^ crc16Update 0x0000#16 (c.extractLsb' 0 8 ^^^ b) := by
  have hhigh : crc16Shifts 8 (c >>> 8 <<< 8) = c >>> 8 := by
    rw [crc16Shifts_of_low_zero 8 _ fun i hi => by simp [hi]]
    ext i hi
    simpa using BitVec.lt_of_getLsbD
  rw [crc16Update, crc16Update, xor_byte_eq_high_xor_low, crc16Shifts_xor, hhigh, BitVec.zero_xor]

/-- Settles O14: a shift is linear over XOR, and shifts the high byte, below which there are zeros, out unchanged. -/
theorem crcUpdateByTable : Obligations.CrcUpdateByTable :=
  fun c b => ⟨crc16Shifts_eq_iterate 8 _, crc16Update_eq_shift_xor c b⟩

/-! ### The residue -/

/-- Feeding the register its own low byte shifts it by a byte (40_crc.md R150, R156). -/
theorem crc16Update_lowByte (c : Half) : crc16Update c (c.extractLsb' 0 8) = c >>> 8 := by
  rw [crc16Update_eq_shift_xor, BitVec.xor_self, show crc16Update 0x0000#16 0#8 = 0#16 by decide, BitVec.xor_zero]

/-- Feeding the register its own bytes, the low one first, empties it (40_crc.md R156). -/
theorem crc16Fold_own_bytes (c : Half) : crc16Fold c [c.extractLsb' 0 8, c.extractLsb' 8 8] = 0x0000#16 := by
  have hhigh : c.extractLsb' 8 8 = (c >>> 8).extractLsb' 0 8 := by
    ext i hi
    simp
  change crc16Update (crc16Update c (c.extractLsb' 0 8)) (c.extractLsb' 8 8) = 0x0000#16
  rw [crc16Update_lowByte, hhigh, crc16Update_lowByte, ← BitVec.shiftRight_add]
  exact BitVec.ushiftRight_eq_zero (by decide)

/-- Settles O16: the CRC is the register after the message, and its own bytes empty it. -/
theorem crcResidueIsZero : Obligations.CrcResidueIsZero := by
  intro p m hinit hxor
  have hcrc (bytes : List Byte) : crc16 p bytes = crc16Fold 0x0000#16 bytes := by
    rw [crc16, hinit, hxor, BitVec.xor_zero]
  rw [hcrc (m ++ _), crc16Fold_append, ← hcrc m]
  exact crc16Fold_own_bytes (crc16 p m)

/-! ### The commands -/

/-- Of the words with a row's OP, those that the row does not match are illegal (30_encoding.md R112, R115). -/
theorem othersIllegal_of_mem {r : OpcodeRow} (hr : r ∈ opcodeTable) :
    OthersIllegal (opField r.value) r.value r.mask := by
  intro w s hop hw
  exact executeCommand_of_illegal (decode_of_opField_not_admits hr hop (mt (OpcodeRow.admits_iff r w).mp hw)) s

/-- The word of a command runs it (30_encoding.md R112, R114). -/
theorem wordRuns_encode (i : Instr) : WordRuns (encode i) i := executeCommand_of_command (decodeOfEncode i)

/-- Settles O11: CRC_INIT's row is the second of the table. -/
theorem crcInitCommand : Obligations.CrcInitCommand :=
  ⟨wordRuns_encode .crcInit, othersIllegal_of_mem (r := opcodeTable[1]) (List.getElem_mem _),
    fun _ => rfl⟩

/-- Settles O12: CRC_BYTE's row is the third of the table. -/
theorem crcByteCommand : Obligations.CrcByteCommand :=
  ⟨fun b => wordRuns_encode (.crcByte b),
    othersIllegal_of_mem (r := opcodeTable[2]) (List.getElem_mem _), fun _ _ => rfl⟩

/-- Settles O13: CRC_CHECK's row is the fourth of the table, and CRC_MATCH takes the comparison. -/
theorem crcCheckCommand : Obligations.CrcCheckCommand :=
  ⟨wordRuns_encode .crcCheck, othersIllegal_of_mem (r := opcodeTable[3]) (List.getElem_mem _),
    fun s => ⟨s.crcFinal == s.argLow, beq_iff_eq, rfl⟩⟩

/-! ### What neither reads nor writes the CRC unit

An operation that commutes with replacing the CRC unit, whatever replaces it, does not read it and does not write it. -/

/-- The state with another CRC unit. -/
def State.withCrc (c : CrcUnit) (s : State) : State := { s with crc := c }

section
variable (c : CrcUnit) (s : State)

@[simp] theorem withCrc_crc : (s.withCrc c).crc = c := rfl
@[simp] theorem withCrc_cfg : (s.withCrc c).cfg = s.cfg := rfl
@[simp] theorem withCrc_conf : (s.withCrc c).conf = s.conf := rfl
@[simp] theorem withCrc_rxq : (s.withCrc c).rxq = s.rxq := rfl
@[simp] theorem hdrTo_withCrc : (s.withCrc c).hdrTo = s.hdrTo := rfl
@[simp] theorem hdrFrom_withCrc : (s.withCrc c).hdrFrom = s.hdrFrom := rfl
@[simp] theorem hdrId_withCrc : (s.withCrc c).hdrId = s.hdrId := rfl
@[simp] theorem hdrFlags_withCrc : (s.withCrc c).hdrFlags = s.hdrFlags := rfl
@[simp] theorem txPayload_withCrc : (s.withCrc c).txPayload = s.txPayload := rfl
@[simp] theorem sendRefusal_withCrc : (s.withCrc c).sendRefusal = s.sendRefusal := rfl
@[simp] theorem isDuplicate_withCrc (f : Frame) : (s.withCrc c).isDuplicate f = s.isDuplicate f := rfl

theorem tick_withCrc : (s.withCrc c).tick = s.tick.withCrc c := by
  simp only [State.tick, apply_ite (State.withCrc c)]
  rfl

theorem timeoutCheck_withCrc : (s.withCrc c).timeoutCheck = s.timeoutCheck.withCrc c := by
  simp only [State.timeoutCheck, apply_ite (State.withCrc c)]
  rfl

theorem ackMatch_withCrc (f : Frame) : (s.withCrc c).ackMatch f = (s.ackMatch f).withCrc c := by
  simp only [State.ackMatch, apply_ite (State.withCrc c)]
  rfl

theorem deliver_withCrc (f : Frame) (rssi : Rssi) : (s.withCrc c).deliver f rssi = (s.deliver f rssi).withCrc c := by
  simp only [State.deliver, apply_ite (State.withCrc c)]
  rfl

theorem acceptFresh_withCrc (f : Frame) (rssi : Rssi) :
    (s.withCrc c).acceptFresh f rssi = (s.acceptFresh f rssi).withCrc c := by
  simp only [State.acceptFresh, deliver_withCrc]
  rfl

theorem manage_withCrc (f : Frame) (rssi : Rssi) : (s.withCrc c).manage f rssi = (s.manage f rssi).withCrc c := by
  simp only [State.manage, ackMatch_withCrc, isDuplicate_withCrc, acceptFresh_withCrc]
  split_ifs <;> rfl

theorem rxOutcome_withCrc (r : FrameResult) (rssi : Rssi) :
    (s.withCrc c).rxOutcome r rssi = (s.rxOutcome r rssi).withCrc c := by
  cases r with
  | error e => cases e <;> rfl
  | frame f =>
    have hmanage := manage_withCrc c (s.noteRssi f.fromAddr rssi) f rssi
    simp only [State.rxOutcome, apply_ite (State.withCrc c), ← hmanage]
    rfl

theorem rxProcess_withCrc (bytes : List Byte) (rssi : Rssi) :
    (s.withCrc c).rxProcess bytes rssi = (s.rxProcess bytes rssi).withCrc c :=
  congrArg (State.callSetMode .receive) (rxOutcome_withCrc c s (decodeFrame s.cfg s.conf.sync bytes) rssi)

theorem poll_withCrc : (s.withCrc c).poll = s.poll.withCrc c := by
  simp only [State.poll, apply_ite (State.withCrc c), ← rxProcess_withCrc]
  rfl

theorem iterate_withCrc : (s.withCrc c).iterate = s.iterate.withCrc c := by
  simp only [State.iterate, apply_ite (State.withCrc c), ← timeoutCheck_withCrc, ← poll_withCrc]
  rfl

theorem acceptReliable_withCrc (dest maxRetries : Byte) :
    (s.withCrc c).acceptReliable dest maxRetries = (s.acceptReliable dest maxRetries).withCrc c := by
  simp only [State.acceptReliable, apply_ite (State.withCrc c)]
  rfl

end

/-- An answer with another CRC unit in its next state. -/
def outcomeWithCrc (c : CrcUnit) : Host.Outcome State Fault Refusal → Host.Outcome State Fault Refusal
  | .next t => .next (t.withCrc c)
  | .fault r => .fault r
  | .refused r => .refused r

section
variable (c : CrcUnit) (s : State)

theorem execEncode_withCrc : execEncode (s.withCrc c) = outcomeWithCrc c (execEncode s) := by
  simp only [execEncode, withCrc_cfg, withCrc_conf, hdrTo_withCrc, hdrFrom_withCrc, hdrId_withCrc, hdrFlags_withCrc,
    txPayload_withCrc]
  cases encodeFrame s.cfg s.conf.sync s.hdrTo s.hdrFrom s.hdrId s.hdrFlags s.txPayload <;> rfl

theorem execSendReliable_withCrc (dest maxRetries : Byte) :
    execSendReliable dest maxRetries (s.withCrc c) = outcomeWithCrc c (execSendReliable dest maxRetries s) := by
  simp only [execSendReliable, sendRefusal_withCrc, acceptReliable_withCrc]
  cases s.sendRefusal <;> rfl

theorem execSendUnreliable_withCrc (dest : Byte) :
    execSendUnreliable dest (s.withCrc c) = outcomeWithCrc c (execSendUnreliable dest s) := by
  simp only [execSendUnreliable, sendRefusal_withCrc]
  cases s.sendRefusal <;> rfl

theorem execRxqPop_withCrc : execRxqPop (s.withCrc c) = outcomeWithCrc c (execRxqPop s) := by
  simp only [execRxqPop, withCrc_rxq]
  cases s.rxq <;> rfl

/-- A command that is none of the CRC unit's answers the same with another CRC unit, which it leaves as it is (40_crc.md
R155). -/
theorem exec_withCrc (i : Instr) (hi : isCrcCommand i = false) :
    exec i (s.withCrc c) = outcomeWithCrc c (exec i s) := by
  cases i with
  | nop => rfl
  | crcInit => cases hi
  | crcByte byte => cases hi
  | crcCheck => cases hi
  | setAddr self promiscuous => simp only [exec, execSetAddr, apply_ite (outcomeWithCrc c)]; rfl
  | setSync => rfl
  | encode => exact execEncode_withCrc c s
  | decode => simp only [exec, execDecode, apply_ite (outcomeWithCrc c)]; rfl
  | filter => simp only [exec, execFilter, apply_ite (outcomeWithCrc c)]; rfl
  | sendReliable dest maxRetries => exact execSendReliable_withCrc c s dest maxRetries
  | sendUnreliable dest => exact execSendUnreliable_withCrc c s dest
  | stop => rfl
  | rxqPop => exact execRxqPop_withCrc c s

end

/-- An answer that putting the old CRC unit in does not change holds the old unit: what commutes with replacing the unit
does not write it. -/
theorem crc_eq_of_withCrc {s t : State} (h : t = t.withCrc s.crc) : t.crc = s.crc := by
  rw [h, withCrc_crc]

/-- A CRC command replaces the CRC unit and reports OK (40_crc.md R152 to R154). -/
theorem exec_of_isCrcCommand (i : Instr) (s : State) (hi : isCrcCommand i = true) :
    ∃ c : CrcUnit, exec i s = .next { s with crc := c, cmdResult := .ok } := by
  cases i with
  | crcInit => exact ⟨_, rfl⟩
  | crcByte byte => exact ⟨_, rfl⟩
  | crcCheck => exact ⟨_, rfl⟩
  | _ => cases hi

/-- Settles O17: the other commands, ITERATE and TICK commute with replacing the CRC unit. -/
theorem crcUnitIsUndisturbed : Obligations.CrcUnitIsUndisturbed := by
  refine ⟨exec_of_isCrcCommand, fun i s t c hi ht => ?_, fun s c => ?_⟩
  · have hcomm (c : CrcUnit) : exec i (s.withCrc c) = .next (t.withCrc c) := by
      rw [exec_withCrc c s i hi, ht, outcomeWithCrc]
    exact ⟨crc_eq_of_withCrc (Host.Outcome.next.inj (ht.symm.trans (hcomm s.crc))), hcomm c⟩
  · exact ⟨crc_eq_of_withCrc (iterate_withCrc s.crc s), iterate_withCrc c s,
      crc_eq_of_withCrc (tick_withCrc s.crc s), tick_withCrc c s⟩

end Sys2Proof.Machine
end

section
/-! The frame codec (41_codec.md): what each check of the decoder answers, the round trip, and which changes of an image
the decoder detects. -/

namespace Sys2Proof.Machine

/-! ### The CRC tells apart messages that differ in one byte -/

/-- A shift keeps the bit it pushes out, as bit 15 (40_crc.md R150). -/
theorem getLsbD_15_crc16Shift (c : Half) : (crc16Shift c).getLsbD 15 = c.getLsbD 0 := by
  unfold crc16Shift
  split
  next h => simp [h]
  next h => simpa using h

/-- A shift loses nothing: bit 15 of the result says which bit was pushed out and whether 0xA001 was XORed in. -/
theorem crc16Shift_injective : Function.Injective crc16Shift := by
  intro x y h
  have hlow : x.getLsbD 0 = y.getLsbD 0 := by rw [← getLsbD_15_crc16Shift, h, getLsbD_15_crc16Shift]
  have hrest : x >>> 1 = y >>> 1 := by
    unfold crc16Shift at h
    rw [hlow] at h
    split at h
    · exact (BitVec.xor_left_inj _).mp h
    · exact h
  apply BitVec.eq_of_getLsbD_eq
  rintro (_ | i) hi
  · exact hlow
  · have hbit := congrArg (fun c : Half => c.getLsbD i) hrest
    simpa [Nat.add_comm] using hbit

/-- The update is one-to-one in the register with the byte XORed in (40_crc.md R150). -/
theorem crc16Update_eq_iff (c c' : Half) (b b' : Byte) :
    crc16Update c b = crc16Update c' b' ↔ c ^^^ b.setWidth 16 = c' ^^^ b'.setWidth 16 := by
  unfold crc16Update
  rw [crc16Shifts_eq_iterate, crc16Shifts_eq_iterate]
  exact (crc16Shift_injective.iterate 8).eq_iff

/-- Different registers stay different under the same bytes. -/
theorem crc16Fold_left_injective (bytes : List Byte) : Function.Injective fun c => crc16Fold c bytes := by
  induction bytes with
  | nil => exact fun _ _ h => h
  | cons b bytes ih =>
    intro c c' h
    exact (BitVec.xor_left_inj _).mp ((crc16Update_eq_iff c c' b b).mp (ih h))

/-- A message with one byte replaced by another leaves another register. -/
theorem crc16Fold_set_ne (bytes : List Byte) (c : Half) (k : Nat) (v : Byte) (hk : k < bytes.length)
    (hv : v ≠ byteAt bytes k) : crc16Fold c (bytes.set k v) ≠ crc16Fold c bytes := by
  induction bytes generalizing c k with
  | nil => exact absurd hk (Nat.not_lt_zero k)
  | cons b bytes ih =>
    cases k with
    | zero =>
      intro h
      have hupdate := (crc16Update_eq_iff c c v b).mp (crc16Fold_left_injective bytes h)
      have hwide := (BitVec.xor_right_inj _).mp hupdate
      have hbyte : v = b := by simpa using congrArg (BitVec.setWidth 8) hwide
      exact hv hbyte
    | succ k => exact ih (crc16Update c b) k (Nat.lt_of_succ_lt_succ hk) hv

/-- A message with one byte replaced by another has another CRC (41_codec.md R177). -/
theorem crc16_set_ne (p : Params) (bytes : List Byte) (k : Nat) (v : Byte) (hk : k < bytes.length)
    (hv : v ≠ byteAt bytes k) : crc16 p (bytes.set k v) ≠ crc16 p bytes :=
  fun h => crc16Fold_set_ne bytes p.crcInitVal k v hk hv ((BitVec.xor_left_inj _).mp h)

/-! ### The decoder, check by check -/

section
variable {p : Params} {sync : Half} {bytes : List Byte}

/-- An image that ends before the sync word does is rejected (41_codec.md R174, R178). -/
theorem decodeFrame_of_short (h : bytes.length < p.preambleLen + 2) :
    decodeFrame p sync bytes = .error .invalidSync := if_pos h

/-- A wrong sync word is rejected (41_codec.md R174). -/
theorem decodeFrame_of_sync_ne
    (h : byteAt bytes p.preambleLen ≠ highByte sync ∨ byteAt bytes (p.preambleLen + 1) ≠ lowByte sync) :
    decodeFrame p sync bytes = .error .invalidSync :=
  ite_eq_left_iff.mpr fun _ => if_pos h

/-- Past the sync word, an image that holds no full header, a Length above MAX_PAYLOAD, or a Length that is not the
image's is rejected (41_codec.md R174, R178). -/
theorem decodeFrame_of_length_ne (hhigh : byteAt bytes p.preambleLen = highByte sync)
    (hlow : byteAt bytes (p.preambleLen + 1) = lowByte sync) (hsync : p.preambleLen + 2 ≤ bytes.length)
    (h : bytes.length ≤ p.preambleLen + 6 ∨ p.maxPayload < (byteAt bytes (p.preambleLen + 6)).toNat ∨
      bytes.length ≠ p.preambleLen + 9 + (byteAt bytes (p.preambleLen + 6)).toNat) :
    decodeFrame p sync bytes = .error .lengthMismatch := by
  simp only [decodeFrame, hhigh, hlow, ne_eq, not_true_eq_false, or_self, if_false]
  rw [if_neg (by omega), ite_eq_left_iff]
  exact fun _ => if_pos (by omega)

/-- An image of the right length whose trailer is not the CRC of the covered bytes is rejected (41_codec.md R174). -/
theorem decodeFrame_of_crc_ne (hhigh : byteAt bytes p.preambleLen = highByte sync)
    (hlow : byteAt bytes (p.preambleLen + 1) = lowByte sync) {n : Nat} (hn : n ≤ p.maxPayload)
    (hlen : bytes.length = p.preambleLen + 9 + n) (hfield : (byteAt bytes (p.preambleLen + 6)).toNat = n)
    (hcrc : crc16 p ((bytes.drop (p.preambleLen + 2)).take (5 + n)) ≠
      byteAt bytes (p.preambleLen + 8 + n) ++ byteAt bytes (p.preambleLen + 7 + n)) :
    decodeFrame p sync bytes = .error .crcMismatch := by
  simp only [decodeFrame, hhigh, hlow, ne_eq, not_true_eq_false, or_self, if_false, hfield]
  rw [if_neg (by omega), if_neg (by omega), if_neg (by omega), if_pos hcrc]

end

/-! ### The round trip -/

/-- The bytes of a concatenation of two bytes. -/
theorem eq_append_iff (c : Half) (x y : Byte) : c = y ++ x ↔ x = lowByte c ∧ y = highByte c := by
  constructor
  · rintro rfl
    exact ⟨by simp [lowByte], by simp [highByte]⟩
  · rintro ⟨rfl, rfl⟩
    exact (highByte_append_lowByte c).symm

/-- The Length byte of a payload that fits is the payload's length (30_encoding.md R121). -/
theorem toNat_lengthByte {p : Params} {payload : List Byte} (hmax : p.maxPayload ≤ 255)
    (hlen : payload.length ≤ p.maxPayload) : (BitVec.ofNat 8 payload.length).toNat = payload.length := by
  rw [BitVec.toNat_ofNat]
  omega

/-- What follows any preamble of the right length decodes to the frame it encodes (41_codec.md R173, R177). -/
theorem decodeFrame_append_imageTail (p : Params) (sync : Half) (t f i g : Byte) (pre payload : List Byte)
    (hpre : pre.length = p.preambleLen) (hmax : p.maxPayload ≤ 255) (hlen : payload.length ≤ p.maxPayload) :
    decodeFrame p sync (pre ++ imageTail p sync t f i g payload) =
      .frame ⟨t, f, i, g, BitVec.ofNat 8 payload.length, payload⟩ := by
  have hfield := toNat_lengthByte hmax hlen
  rw [imageTail, frameBody, decodeFrame_parts p sync pre payload _ _ _ _ _ _ _ _ _ hpre, if_neg (by simp),
    if_neg (by omega), if_neg (by simp [highByte_append_lowByte])]

/-- Settles O19: the wire image is a preamble and the frame's tail. -/
theorem decodeOfEncodedFrame : Obligations.DecodeOfEncodedFrame := by
  intro p sync t f i g payload hmax hlen
  refine ⟨_, if_neg (Nat.not_lt.mpr hlen), ?_⟩
  rw [wireImage_eq_append_tail]
  exact decodeFrame_append_imageTail p sync t f i g _ payload (by simp) hmax hlen

/-- An image long enough for every field of R121, cut into its fields. -/
theorem exists_image_fields (bytes : List Byte) (m n : Nat) (h : bytes.length = m + 9 + n) :
    ∃ (pre payload : List Byte) (a b t f i g l x y : Byte), pre.length = m ∧ payload.length = n ∧
      bytes = pre ++ ([a, b] ++ (([t, f, i, g, l] ++ payload) ++ [x, y])) := by
  have hrest : (bytes.drop m).length = n + 9 := by rw [List.length_drop]; omega
  match hd : bytes.drop m, hrest with
  | a :: b :: t :: f :: i :: g :: l :: rest, hrest =>
    simp only [List.length_cons] at hrest
    have htrailer : (rest.drop n).length = 2 := by rw [List.length_drop]; omega
    obtain ⟨x, y, hxy⟩ := List.length_eq_two.mp htrailer
    refine ⟨bytes.take m, rest.take n, a, b, t, f, i, g, l, x, y, ?_, ?_, ?_⟩
    · rw [List.length_take]; omega
    · rw [List.length_take]; omega
    · rw [List.append_assoc, ← hxy, List.take_append_drop]
      exact (List.take_append_drop m bytes).symm.trans (congrArg _ hd)

/-- Settles O20: cut the image into its fields; each check of the decoder says which bytes a field holds. -/
theorem decodedImagesAreEncodings : Obligations.DecodedImagesAreEncodings := by
  intro p sync bytes fr h
  obtain ⟨-, -, -, hmax, hlen, -⟩ := decodeFrame_eq_frame p sync bytes fr h
  obtain ⟨pre, payload, a, b, t, f, i, g, l, x, y, hpre, hpay, rfl⟩ := exists_image_fields bytes _ _ hlen
  rw [decodeFrame_parts p sync pre payload a b t f i g l x y hpre] at h
  split_ifs at h with hsync hlength hcrc
  cases h
  simp only [not_or, not_not] at hsync hcrc
  obtain ⟨rfl, rfl⟩ := hsync
  obtain ⟨rfl, rfl⟩ := (eq_append_iff _ _ _).mp hcrc
  have hl : l = BitVec.ofNat 8 payload.length := by rw [hpay, BitVec.ofNat_toNat, BitVec.setWidth_eq]
  have hfits : payload.length ≤ p.maxPayload := hpay.trans_le hmax
  refine ⟨wireImage p sync t f i g payload, if_neg (Nat.not_lt.mpr hfits), by simp [hpre]; omega, ?_⟩
  rw [wireImage_eq_append_tail, List.drop_left' hpre, List.drop_left' (by simp), imageTail, frameBody, hl]

/-! ### Changes of an image -/

/-- A byte of a sequence in which another byte was replaced. -/
theorem byteAt_set_of_ne (bytes : List Byte) (k m : Nat) (v : Byte) (h : k ≠ m) :
    byteAt (bytes.set k v) m = byteAt bytes m := by
  simp only [byteAt, List.getD_eq_getElem?_getD, List.getElem?_set_ne h]

/-- The byte that replaced another. -/
theorem byteAt_set_self (bytes : List Byte) (k : Nat) (v : Byte) (h : k < bytes.length) :
    byteAt (bytes.set k v) k = v := by
  simp [byteAt, h]

/-- Flipping a bit changes the byte (41_codec.md R177). -/
theorem xor_bit_ne (b : Byte) (j : Nat) (hj : j < 8) : b ^^^ (1#8 <<< j) ≠ b := by
  intro h
  have hbit := congrArg (fun v : Byte => v.getLsbD j) h
  simp [hj] at hbit

/-- A payload that `encode` takes fits (41_codec.md R171). -/
theorem length_le_of_encodeFrame {p : Params} {sync : Half} {t f i g : Byte} {payload image : List Byte}
    (h : encodeFrame p sync t f i g payload = .image image) : payload.length ≤ p.maxPayload := by
  refine Nat.not_lt.mp fun hlong => ?_
  rw [(encodeFrame_eq_payloadTooLong_iff p sync t f i g payload).mpr hlong] at h
  cases h

/-- A byte of a part cut out of a sequence. -/
theorem byteAt_take_drop (bytes : List Byte) (m n k : Nat) (h : k < n) :
    byteAt ((bytes.drop m).take n) k = byteAt bytes (m + k) := by
  simp [byteAt, h]

/-- A replaced byte, in a message that starts at byte `m` and has `n` bytes or in the CRC that follows it, makes the two
disagree (41_codec.md R177). -/
theorem crc_ne_trailer_of_set (p : Params) (bytes : List Byte) (m n k : Nat) (v : Byte) (hlow : m ≤ k)
    (hhigh : k < m + n + 2) (hlen : m + n + 2 ≤ bytes.length) (hv : v ≠ byteAt bytes k)
    (hcrc : crc16 p ((bytes.drop m).take n) = byteAt bytes (m + n + 1) ++ byteAt bytes (m + n)) :
    crc16 p (((bytes.set k v).drop m).take n) ≠
      byteAt (bytes.set k v) (m + n + 1) ++ byteAt (bytes.set k v) (m + n) := by
  intro h
  have hself : byteAt (bytes.set k v) k = v := byteAt_set_self bytes k v (by omega)
  rw [List.drop_set, if_neg (by omega), List.take_set] at h
  have hcovered : ((bytes.drop m).take n).length = n := by
    rw [List.length_take, List.length_drop]
    omega
  by_cases hin : k < m + n
  · rw [byteAt_set_of_ne bytes k _ v (by omega), byteAt_set_of_ne bytes k _ v (by omega), ← hcrc] at h
    refine crc16_set_ne p _ (k - m) v (by omega) ?_ h
    rwa [byteAt_take_drop bytes m n _ (by omega), show m + (k - m) = k by omega]
  · rw [List.set_eq_of_length_le (by omega)] at h
    obtain ⟨hnew, hnew'⟩ := (eq_append_iff _ _ _).mp h
    obtain ⟨hold, hold'⟩ := (eq_append_iff _ _ _).mp hcrc
    obtain rfl | rfl : k = m + n ∨ k = m + n + 1 := by omega
    · exact hv (hself.symm.trans (hnew.trans hold.symm))
    · exact hv (hself.symm.trans (hnew'.trans hold'.symm))

/-- Settles O21. Of the bytes that a check reads, the flipped one is the only one that changed: in the sync word it is not
SYNC's, in Length it is not the image's length, and in the covered bytes or the trailer it parts them from each other. -/
theorem singleBitFlipOutcomes : Obligations.SingleBitFlipOutcomes := by
  intro p sync t f i g payload image k j hmax henc hk hj
  obtain ⟨hlen, -, hhigh, hlow, -, -, -, -, hfield, -, hcrcLow, hcrcHigh⟩ :=
    (wireImageLayout p sync t f i g payload).2 image henc
  have hfits : payload.length ≤ p.maxPayload := length_le_of_encodeFrame henc
  have hne : byteAt image k ^^^ (1#8 <<< j) ≠ byteAt image k := xor_bit_ne _ j hj
  have hself : byteAt (flipBit image k j) k ≠ byteAt image k := by rwa [flipBit, byteAt_set_self image k _ hk]
  have hother {m : Nat} (hm : k ≠ m) : byteAt (flipBit image k j) m = byteAt image m := byteAt_set_of_ne image k m _ hm
  have hflen : (flipBit image k j).length = p.preambleLen + 9 + payload.length := by rw [flipBit, List.length_set, hlen]
  split_ifs with hpre hsync hlength
  · obtain rfl := encodeFrame_eq_image p sync t f i g payload image henc
    rw [flipBit, wireImage_eq_append_tail, List.set_append_left _ _ (by simpa using hpre)]
    exact decodeFrame_append_imageTail p sync t f i g _ payload (by simp) hmax hfits
  · obtain rfl | rfl : k = p.preambleLen ∨ k = p.preambleLen + 1 := by omega
    · exact decodeFrame_of_sync_ne (Or.inl fun h => hself (h.trans hhigh.symm))
    · exact decodeFrame_of_sync_ne (Or.inr fun h => hself (h.trans hlow.symm))
  · subst hlength
    refine decodeFrame_of_length_ne ((hother (by omega)).trans hhigh) ((hother (by omega)).trans hlow) (by omega)
      (Or.inr (Or.inr fun hl => hself ?_))
    have hnat : payload.length = (byteAt (flipBit image (p.preambleLen + 6) j) (p.preambleLen + 6)).toNat := by omega
    rw [hfield, hnat, BitVec.ofNat_toNat, BitVec.setWidth_eq]
  · refine decodeFrame_of_crc_ne ((hother (by omega)).trans hhigh) ((hother (by omega)).trans hlow) hfits hflen ?_ ?_
    · rw [hother (Ne.intro hlength), hfield, toNat_lengthByte hmax hfits]
    · have hcrc := (eq_append_iff _ _ _).mpr ⟨hcrcLow, hcrcHigh⟩
      rw [show p.preambleLen + 8 + payload.length = p.preambleLen + 2 + (5 + payload.length) + 1 by omega,
        show p.preambleLen + 7 + payload.length = p.preambleLen + 2 + (5 + payload.length) by omega] at hcrc ⊢
      exact crc_ne_trailer_of_set p image _ _ k _ (by omega) (by omega) (by omega) hne hcrc

/-- An image that agrees with an encoded one in the sync word and in Length, and has another length, is rejected for its
length (41_codec.md R178). -/
theorem decodeFrame_of_other_length {p : Params} {sync : Half} {t f i g : Byte} {payload image bytes : List Byte}
    (hmax : p.maxPayload ≤ 255) (h : encodeFrame p sync t f i g payload = .image image)
    (hbytes : ∀ k ≤ p.preambleLen + 6, byteAt bytes k = byteAt image k) (hsync : p.preambleLen + 2 ≤ bytes.length)
    (hlen : bytes.length ≠ image.length) : decodeFrame p sync bytes = .error .lengthMismatch := by
  obtain ⟨hlength, -, hhigh, hlow, -, -, -, -, hfield, -⟩ := (wireImageLayout p sync t f i g payload).2 image h
  refine decodeFrame_of_length_ne ((hbytes _ (by omega)).trans hhigh) ((hbytes _ (by omega)).trans hlow) hsync
    (Or.inr (Or.inr ?_))
  rwa [hbytes _ le_rfl, hfield, toNat_lengthByte hmax (length_le_of_encodeFrame h), ← hlength]

/-- Settles O22: each corner is a length that some check of the decoder rejects. -/
theorem decodeLengthCorners : Obligations.DecodeLengthCorners := by
  refine fun p sync bytes => ⟨decodeFrame_of_short, fun hhigh hlow => ⟨fun hsync hshort => ?_, fun hheader hbig => ?_⟩,
    fun t f i g b payload hmax h => ?_⟩
  · exact decodeFrame_of_length_ne hhigh hlow hsync (Or.inl hshort)
  · exact decodeFrame_of_length_ne hhigh hlow (by omega) (Or.inr (Or.inl hbig))
  · have hlen : bytes.length = p.preambleLen + 9 + payload.length := ((wireImageLayout p sync t f i g payload).2 bytes h).1
    constructor
    · exact decodeFrame_of_other_length hmax h (fun k hk => byteAt_append_of_lt bytes [b] k (by omega)) (by simp; omega)
        (by simp)
    · refine decodeFrame_of_other_length hmax h (fun k hk => ?_) (by simp; omega) (by simp; omega)
      have hne : bytes ≠ [] := List.ne_nil_of_length_pos (by omega)
      have hlast := byteAt_append_of_lt bytes.dropLast [bytes.getLast hne] k (by simp; omega)
      rwa [List.dropLast_append_getLast, eq_comm] at hlast

end Sys2Proof.Machine
end

section
/-! The codec's commands (41_codec.md R172, R176), and who stores to the buffers. -/

namespace Sys2Proof.Machine

/-! ### A filled buffer -/

/-- Filling a buffer leaves every offset outside it alone (log 18: bytes past its end are dropped). -/
theorem read_fillBuffer_outside (b : Buffer) (bytes : List Byte) (s : State) (a : Nat) (hwf : Memory.wf s.mem = true)
    (ha : a < b.start ∨ b.start + b.size ≤ a) :
    Memory.read (s.fillBuffer b bytes).mem a = Memory.read s.mem a := by
  rw [read_fillBuffer b bytes s a hwf, if_neg (by omega)]

/-- A filled buffer with room for the bytes holds them, and 0x00 after them (41_codec.md R172; 44_receive.md R270). -/
theorem read_fillBuffer_inside (b : Buffer) (bytes : List Byte) (s : State) (k : Nat) (hwf : Memory.wf s.mem = true)
    (hlen : bytes.length ≤ b.size) (hk : k < b.size) :
    Memory.read (s.fillBuffer b bytes).mem (b.start + k) = if k < bytes.length then byteAt bytes k else 0x00#8 := by
  rw [read_fillBuffer b bytes s _ hwf, if_pos (by omega), List.take_of_length_le hlen, Nat.add_sub_cancel_left]
  split
  next => rfl
  next hend => exact List.getD_eq_default _ _ (Nat.not_lt.mp hend)

/-! ### The commands -/

/-- Settles O23: the payload fits exactly when TXLEN does, and then the image goes to WIRE_TX, where it has room. -/
theorem encodeCommand : Obligations.EncodeCommand := by
  refine ⟨wordRuns_encode .encode, othersIllegal_of_mem (r := opcodeTable[6]) (List.getElem_mem _),
    fun s hwf hpre => ⟨fun hlong => ?_, fun hfits => ?_⟩⟩
  · have henc := (encodeFrame_eq_payloadTooLong_iff s.cfg s.conf.sync s.hdrTo s.hdrFrom s.hdrId s.hdrFlags
      s.txPayload).mpr (by rwa [txPayload_length])
    simp only [exec, execEncode, henc, State.setResult]
  · obtain ⟨image, henc⟩ : ∃ image, encodeFrame s.cfg s.conf.sync s.hdrTo s.hdrFrom s.hdrId s.hdrFlags s.txPayload =
      .image image := ⟨_, if_neg (by rw [txPayload_length]; omega)⟩
    have hlen : image.length ≤ 512 := by
      have htx := s.data.txLen.isLt
      rw [encodeFrame_eq_image _ _ _ _ _ _ _ _ henc, wireImage_length, txPayload_length]
      omega
    refine ⟨image, (s.fillBuffer .wireTx image).mem, henc, ?_, ?_, fun k hk => ?_, fun a ha => ?_⟩
    · simp only [exec, execEncode, henc, State.setResult]
      rfl
    · rw [BitVec.toNat_ofNat]
      omega
    · exact read_fillBuffer_inside .wireTx image s k hwf hlen hk
    · exact read_fillBuffer_outside .wireTx image s a hwf ha

/-- Settles O24: RXLEN above WIRE_BUF is refused, and otherwise the registers take the outcome. -/
theorem decodeCommand : Obligations.DecodeCommand := by
  refine ⟨wordRuns_encode .decode, othersIllegal_of_mem (r := opcodeTable[7]) (List.getElem_mem _),
    fun s => ⟨fun hlong => if_pos hlong, fun hfits r hr => ?_⟩⟩
  have hexec : exec .decode s = .next { s with cmdResult := .ok, dec := decodeRegisters r } := by
    rw [← hr]
    exact if_neg (Nat.not_lt.mpr hfits)
  rw [hexec]
  cases r with
  | frame f => rfl
  | error e => cases e <;> rfl

/-! ### The buffers' frame -/

/-- What a command leaves in the buffers: ENCODE fills WIRE_TX or fails, RXQ_POP fills RXQ_DATA or finds no record, and no
other command stores to them (41_codec.md R172; 44_receive.md R270). -/
theorem exec_mem_cases (i : Instr) (s t : State) (h : exec i s = .next t) :
    t.mem = s.mem ∨ (i = .encode ∧ ∃ bytes, t.mem = (s.fillBuffer .wireTx bytes).mem) ∨
      (i = .rxqPop ∧ ∃ bytes, t.mem = (s.fillBuffer .rxqData bytes).mem) := by
  cases i with
  | nop => cases h; exact Or.inl rfl
  | crcInit => cases h; exact Or.inl rfl
  | crcByte byte => cases h; exact Or.inl rfl
  | crcCheck => cases h; exact Or.inl rfl
  | setSync => cases h; exact Or.inl rfl
  | stop => cases h; exact Or.inl rfl
  | setAddr self promiscuous => simp only [exec, execSetAddr] at h; split at h <;> cases h <;> exact Or.inl rfl
  | encode =>
    simp only [exec, execEncode] at h
    split at h <;> cases h
    · exact Or.inl rfl
    · exact Or.inr (Or.inl ⟨rfl, _, rfl⟩)
  | decode => simp only [exec, execDecode] at h; split at h <;> (cases h; exact Or.inl rfl)
  | filter => simp only [exec, execFilter] at h; split at h <;> cases h <;> exact Or.inl rfl
  | sendReliable dest maxRetries =>
    simp only [exec, execSendReliable] at h
    split at h <;> cases h
    · exact Or.inl rfl
    · exact Or.inl ((congrArg State.mem (acceptReliable_frame dest maxRetries s)).trans rfl)
  | sendUnreliable dest => simp only [exec, execSendUnreliable] at h; split at h <;> cases h <;> exact Or.inl rfl
  | rxqPop =>
    simp only [exec, execRxqPop] at h
    split at h <;> cases h
    · exact Or.inl rfl
    · exact Or.inr (Or.inr ⟨rfl, _, rfl⟩)

/-- A TICK stores to no buffer (43_send.md R225). -/
theorem tick_mem (s : State) : s.tick.mem = s.mem := by
  rcases tick_cases s with ⟨-, -, h⟩ | ⟨-, h⟩ <;> rw [h]

/-- Settles O53: the two commands that fill a buffer leave the bytes outside it alone, and nothing else stores. -/
theorem bufferFrame : Obligations.BufferFrame := by
  refine ⟨fun i s t a hwf h => ?_, fun s a => ⟨?_, ?_⟩⟩
  · rcases exec_mem_cases i s t h with hmem | ⟨rfl, bytes, hmem⟩ | ⟨rfl, bytes, hmem⟩ <;> rw [hmem]
    · exact ⟨fun _ _ => rfl, fun _ _ => rfl, fun _ _ => rfl⟩
    · exact ⟨fun _ ha => read_fillBuffer_outside _ _ _ _ hwf ha, nofun, fun hi => absurd rfl hi⟩
    · exact ⟨nofun, fun _ ha => read_fillBuffer_outside _ _ _ _ hwf ha, fun _ hi => absurd rfl hi⟩
  · rw [tick_mem]
  · rw [iterate_frame]

end Sys2Proof.Machine
end

section
/-! The address filter and the configuration commands (42_filter_config.md). -/

namespace Sys2Proof.Machine

/-- Settles O25: the filter is the disjunction of its three Boolean tests. -/
theorem filterAccepts : Obligations.FilterAccepts := by
  intro s toAddr
  simp only [State.accepts, broadcast, Bool.or_eq_true, beq_iff_eq, or_assoc]

/-- Settles O26: FILTER's row is the ninth of the table, and the code of the last DECODE selects the branch. -/
theorem filterCommand : Obligations.FilterCommand :=
  ⟨wordRuns_encode .filter, othersIllegal_of_mem (r := opcodeTable[8]) (List.getElem_mem _),
    fun _ => ⟨fun hcode => if_pos hcode, fun hcode => if_neg (not_not_intro hcode)⟩⟩

/-- SET_ADDR's word written field by field: seven zero bits and the flag are the byte B8 (30_encoding.md R111, R114). -/
theorem encode_setAddr (self : Byte) (promiscuous : Bool) :
    encode (.setAddr self promiscuous) = 0x00#8 ++ 0#7 ++ BitVec.ofBool promiscuous ++ self ++ 0x10#8 := by
  cases promiscuous <;> rfl

/-- Settles O27: SET_ADDR's row is the fifth of the table, and the block is running exactly when neither FATAL nor
STOPPED is set. -/
theorem setAddrCommand : Obligations.SetAddrCommand := by
  refine ⟨fun self promiscuous => encode_setAddr self promiscuous ▸ wordRuns_encode (.setAddr self promiscuous),
    othersIllegal_of_mem (r := opcodeTable[4]) (List.getElem_mem _),
    fun s self promiscuous => ⟨fun hhalted => if_neg fun hrun => ?_, fun hfatal hstopped => if_pos ?_⟩⟩
  · obtain ⟨hfatal, hstopped⟩ := (running_iff s).mp hrun
    exact hhalted.elim (ne_true_of_eq_false hfatal) (ne_true_of_eq_false hstopped)
  · exact (running_iff s).mpr ⟨hfatal, hstopped⟩

/-- Settles O28: SET_SYNC's row is the sixth of the table, and the command has one branch. -/
theorem setSyncCommand : Obligations.SetSyncCommand :=
  ⟨wordRuns_encode .setSync, othersIllegal_of_mem (r := opcodeTable[5]) (List.getElem_mem _), fun _ => rfl⟩

end Sys2Proof.Machine
end

section
/-! The send commands (43_send.md sections 1 to 3): the order of their refusals, what an accepted one does, and that no
other command touches TX_SEQ, the Pending Send, SEND_RESULT or the images transmitted. -/

namespace Sys2Proof.Machine

/-! ### Refusal -/

/-- The checks of a send command in their order, by the running state (43_send.md R221, R224). -/
theorem sendRefusal_eq_ite (s : State) :
    s.sendRefusal =
      if s.running = false then some .notRunning
      else if s.pend.state = .awaitingAck then some .busy
      else if s.cfg.maxPayload < s.data.txLen.toNat then some .tooLong
      else none := by
  have hrun : (s.run.fatal || s.run.stopped) = true ↔ s.running = false := by
    simp [State.running, imp_iff_not_or]
  simp only [State.sendRefusal, hrun, gt_iff_lt]

/-- A send command of a running block with no send pending and a payload that fits is accepted (43_send.md R221,
R224). -/
theorem sendRefusal_eq_none {s : State} (hrun : s.running = true) (hidle : s.pend.state ≠ .awaitingAck)
    (hfits : s.data.txLen.toNat ≤ s.cfg.maxPayload) : s.sendRefusal = none := by
  rw [sendRefusal_eq_ite, if_neg (by simp [hrun]), if_neg hidle, if_neg (Nat.not_lt.mpr hfits)]

/-- A refused send command writes its reason to CMD_RESULT and changes nothing else (43_send.md R221, R224). -/
theorem exec_of_sendRefusal_eq_some {i : Instr} (hi : isSendCommand i = true) {s : State} {r : CmdResult}
    (hr : s.sendRefusal = some r) : exec i s = .next { s with cmdResult := r } := by
  cases i with
  | sendReliable dest maxRetries => simp only [exec, execSendReliable, hr, State.setResult]
  | sendUnreliable dest => simp only [exec, execSendUnreliable, hr, State.setResult]
  | _ => exact absurd hi Bool.false_ne_true

/-- Settles O33: each premise makes one check the first that fails. -/
theorem sendRefusedInOrder : Obligations.SendRefusedInOrder := by
  refine fun s i hi => ⟨fun hhalted => ?_, fun hrun hbusy => ?_, fun hrun hidle hlong => ?_⟩ <;>
    refine exec_of_sendRefusal_eq_some hi ?_ <;> rw [sendRefusal_eq_ite]
  · rw [if_pos hhalted]
  · rw [if_neg (by simp [hrun]), if_pos hbusy]
  · rw [if_neg (by simp [hrun]), if_neg hidle, if_pos hlong]

/-! ### Acceptance -/

theorem exec_sendReliable_of_accepted {s : State} (hacc : s.sendRefusal = none) (dest maxRetries : Byte) :
    exec (.sendReliable dest maxRetries) s = .next (s.acceptReliable dest maxRetries) := by
  simp only [exec, execSendReliable, hacc]

theorem exec_sendUnreliable_of_accepted {s : State} (hacc : s.sendRefusal = none) (dest : Byte) :
    exec (.sendUnreliable dest) s =
      .next ((s.allocId.sendOnce (s.sendImage dest flagsUnreliable) s.txSeq).setResult .ok) := by
  simp only [exec, execSendUnreliable, hacc]

/-- A payload that fits is encoded, into the image that the send transmits (41_codec.md R170; 43_send.md R221). -/
theorem encodeFrame_eq_sendImage {s : State} (dest flags : Byte) (hfits : s.data.txLen.toNat ≤ s.cfg.maxPayload) :
    encodeFrame s.cfg s.conf.sync dest s.conf.self s.txSeq flags
      (Memory.readBytes s.mem Buffer.txBuf.start s.data.txLen.toNat) = .image (s.sendImage dest flags) := by
  rw [sendImage_eq s dest flags hfits]
  exact if_neg (Nat.not_lt.mpr (by simpa [Memory.readBytes] using hfits))

/-- Settles O34: of the three cases of an accepted SEND_RELIABLE it is the first attempt. -/
theorem sendReliableUnicast : Obligations.SendReliableUnicast := by
  refine ⟨fun dest maxRetries => wordRuns_encode (.sendReliable dest maxRetries),
    othersIllegal_of_mem (r := opcodeTable[9]) (List.getElem_mem _),
    fun s dest maxRetries hrun hidle hfits hdest hmax =>
      ⟨s.sendImage dest 0x00#8, s.ackTimeout, encodeFrame_eq_sendImage dest _ hfits, rfl, ?_⟩⟩
  rw [exec_sendReliable_of_accepted (sendRefusal_eq_none hrun hidle hfits)]
  rcases acceptReliable_cases dest maxRetries s with ⟨hbroad, -⟩ | ⟨-, hzero, -⟩ | ⟨-, -, haccept⟩
  · exact absurd hbroad hdest
  · exact absurd hzero hmax
  · rw [haccept, firstAttempt_eq, List.append_assoc]
    rfl

/-- Settles O35: of the three cases of an accepted SEND_RELIABLE it is the immediate failure. -/
theorem sendReliableZeroRetries : Obligations.SendReliableZeroRetries := by
  refine fun s dest hrun hidle hfits hdest =>
    ⟨s.sendImage dest 0x00#8, encodeFrame_eq_sendImage dest _ hfits, ?_⟩
  rw [exec_sendReliable_of_accepted (sendRefusal_eq_none hrun hidle hfits)]
  rcases acceptReliable_cases dest 0#8 s with ⟨hbroad, -⟩ | ⟨-, -, haccept⟩ | ⟨-, hmax, -⟩
  · exact absurd hbroad hdest
  · rw [haccept]
    rfl
  · exact absurd rfl hmax

/-- One transmission whose success is reported at once (43_send.md R223, R224). -/
theorem sendOnce_eq (image : List Byte) (id : Byte) (s : State) :
    s.sendOnce image id =
      { s with
        sendResult := ⟨if s.transmitAnswer = true then .sent else .txError, id, 1#8⟩
        trace := s.trace ++ [.transmitRaw image, .setMode .receive]
        trx := { s.trx with
          transmits := s.trx.transmits.tail, answered := s.trx.answered ++ [.transmitRaw s.transmitAnswer] } } := by
  rw [List.append_cons]
  rfl

/-- Settles O36: of the three cases of an accepted SEND_RELIABLE it is the one transmission. -/
theorem sendReliableBroadcast : Obligations.SendReliableBroadcast := by
  refine fun s maxRetries hrun hidle hfits =>
    ⟨s.sendImage 0xFF#8 0x00#8, encodeFrame_eq_sendImage 0xFF#8 _ hfits, ?_⟩
  rw [exec_sendReliable_of_accepted (sendRefusal_eq_none hrun hidle hfits)]
  rcases acceptReliable_cases 0xFF#8 maxRetries s with ⟨-, haccept⟩ | ⟨hunicast, -⟩ | ⟨hunicast, -⟩
  · rw [haccept, sendOnce_eq]
    rfl
  · exact absurd rfl hunicast
  · exact absurd rfl hunicast

/-- Settles O37: SEND_UNRELIABLE's row is the eleventh of the table, and an accepted one is one transmission. -/
theorem sendUnreliableCommand : Obligations.SendUnreliableCommand := by
  refine ⟨fun dest => wordRuns_encode (.sendUnreliable dest),
    othersIllegal_of_mem (r := opcodeTable[10]) (List.getElem_mem _), fun s dest hrun hidle hfits =>
      ⟨s.sendImage dest 0x02#8, encodeFrame_eq_sendImage dest _ hfits, ?_⟩⟩
  rw [exec_sendUnreliable_of_accepted (sendRefusal_eq_none hrun hidle hfits), sendOnce_eq]
  rfl

end Sys2Proof.Machine
end

section
/-! The Pending Send through the events (43_send.md sections 1, 4 and 5): what leaves TX_SEQ, the Pending Send and the
images transmitted alone, and what each event does to a send that is pending. -/

namespace Sys2Proof.Machine

/-! ### The images transmitted -/

/-- The images of a trace that goes on are those before and those of the calls added (10_state.md R46). -/
theorem transmitted_of_trace_append {s t : State} {calls : List TrxCall} (h : t.trace = s.trace ++ calls) :
    t.transmitted = s.transmitted ++ ({ s with trace := calls } : State).transmitted := by
  simp [State.transmitted, h]

theorem callTransmitRaw_transmitted (image : List Byte) (s : State) :
    (s.callTransmitRaw image).transmitted = s.transmitted ++ [image] :=
  transmitted_of_trace_append (calls := [.transmitRaw image]) rfl

theorem callSetMode_transmitted (m : TrxMode) (s : State) : (s.callSetMode m).transmitted = s.transmitted :=
  (transmitted_of_trace_append (calls := [.setMode m]) rfl).trans (List.append_nil _)

theorem callSetAddress_transmitted (s : State) : s.callSetAddress.transmitted = s.transmitted :=
  (transmitted_of_trace_append (calls := [.setAddress s.conf.self s.conf.promisc]) rfl).trans (List.append_nil _)

theorem callFrameReady_transmitted (s : State) : s.callFrameReady.transmitted = s.transmitted :=
  (transmitted_of_trace_append (calls := [.frameReady]) rfl).trans (List.append_nil _)

theorem callReceiveRaw_transmitted (s : State) : s.callReceiveRaw.transmitted = s.transmitted :=
  (transmitted_of_trace_append (calls := [.receiveRaw]) rfl).trans (List.append_nil _)

theorem retransmit_transmitted (s : State) : s.retransmit.transmitted = s.transmitted ++ [s.pend.image] :=
  (callSetMode_transmitted .receive (s.callTransmitRaw s.pend.image)).trans (callTransmitRaw_transmitted _ s)

/-! ### The commands -/

/-- A command that is no accepted send command leaves TX_SEQ, the Pending Send, SEND_RESULT and the images transmitted
alone (43_send.md R220, R231). -/
theorem exec_send_frame (i : Instr) (s t : State) (h : exec i s = .next t)
    (hi : ¬ (isSendCommand i = true ∧ s.sendRefusal = none)) :
    t.txSeq = s.txSeq ∧ t.pend = s.pend ∧ t.sendResult = s.sendResult ∧ t.transmitted = s.transmitted := by
  have refused (hsend : isSendCommand i = true) : ∃ r, t = { s with cmdResult := r } := by
    obtain ⟨r, hr⟩ := Option.ne_none_iff_exists'.mp fun hnone => hi ⟨hsend, hnone⟩
    rw [exec_of_sendRefusal_eq_some hsend hr] at h
    cases h
    exact ⟨r, rfl⟩
  cases i with
  | nop => cases h; exact ⟨rfl, rfl, rfl, rfl⟩
  | crcInit => cases h; exact ⟨rfl, rfl, rfl, rfl⟩
  | crcByte byte => cases h; exact ⟨rfl, rfl, rfl, rfl⟩
  | crcCheck => cases h; exact ⟨rfl, rfl, rfl, rfl⟩
  | setSync => cases h; exact ⟨rfl, rfl, rfl, rfl⟩
  | stop => cases h; exact ⟨rfl, rfl, rfl, rfl⟩
  | setAddr self promiscuous =>
    simp only [exec, execSetAddr] at h
    split at h <;> cases h
    · exact ⟨rfl, rfl, rfl, callSetAddress_transmitted { s with conf := ⟨self, promiscuous, s.conf.sync⟩ }⟩
    · exact ⟨rfl, rfl, rfl, rfl⟩
  | encode => simp only [exec, execEncode] at h; split at h <;> cases h <;> exact ⟨rfl, rfl, rfl, rfl⟩
  | decode => simp only [exec, execDecode] at h; split at h <;> (cases h; exact ⟨rfl, rfl, rfl, rfl⟩)
  | filter => simp only [exec, execFilter] at h; split at h <;> cases h <;> exact ⟨rfl, rfl, rfl, rfl⟩
  | sendReliable dest maxRetries => obtain ⟨r, rfl⟩ := refused rfl; exact ⟨rfl, rfl, rfl, rfl⟩
  | sendUnreliable dest => obtain ⟨r, rfl⟩ := refused rfl; exact ⟨rfl, rfl, rfl, rfl⟩
  | rxqPop => simp only [exec, execRxqPop] at h; split at h <;> cases h <;> exact ⟨rfl, rfl, rfl, rfl⟩

/-- An accepted send command takes the next `id` (43_send.md R220). -/
theorem exec_txSeq_of_accepted (i : Instr) (s t : State) (h : exec i s = .next t) (hi : isSendCommand i = true)
    (hacc : s.sendRefusal = none) : t.txSeq = s.txSeq + 1 := by
  cases i with
  | sendReliable dest maxRetries =>
    rw [exec_sendReliable_of_accepted hacc] at h
    cases h
    rw [acceptReliable_frame]
  | sendUnreliable dest =>
    rw [exec_sendUnreliable_of_accepted hacc] at h
    cases h
    rfl
  | _ => exact absurd hi Bool.false_ne_true

/-- A TICK touches P_REMAIN and nothing else (43_send.md R225). -/
theorem tick_frame (s : State) : s.tick = { s with pend := { s.pend with remain := s.tick.pend.remain } } := by
  rcases tick_cases s with ⟨-, -, h⟩ | ⟨-, h⟩ <;> rw [h]

/-- Settles O38: only an accepted send command allocates an `id`. -/
theorem sequenceNumberAllocation : Obligations.SequenceNumberAllocation := by
  refine ⟨fun i s t h => ?_, fun s => ⟨?_, ?_⟩⟩
  · split
    · rename_i hacc
      exact exec_txSeq_of_accepted i s t h hacc.1 hacc.2
    · rename_i hno
      exact (exec_send_frame i s t h hno).1
  · rw [tick_frame]
  · rw [iterate_frame]

/-- Settles O40: P_REMAIN is 0 or it counts down. -/
theorem tickCountsDown : Obligations.TickCountsDown := by
  intro s
  simp only [State.handle]
  rcases tick_cases s with ⟨ha, hpos, ht⟩ | ⟨hno, ht⟩ <;> rw [ht]
  · have hne : s.pend.remain ≠ 0#32 := by bv_omega
    exact ⟨fun _ => by rw [if_neg hne]; rfl, fun hna => absurd ha hna⟩
  · refine ⟨fun ha => ?_, fun _ => rfl⟩
    have hzero : s.pend.remain = 0#32 := by
      have hle : ¬ 0#32 < s.pend.remain := fun hpos => hno ⟨ha, hpos⟩
      bv_omega
    rw [if_pos hzero, ← hzero]

/-! ### Host accesses -/

/-- While a send is pending no send command is accepted (43_send.md R221, R224, R232). -/
theorem sendRefusal_ne_none_of_awaiting {s : State} (ha : s.pend.state = .awaitingAck) : s.sendRefusal ≠ none :=
  fun hacc => ((sendRefusal_eq_none_iff s).mp hacc).2.2.1 ha

/-- A host access leaves a pending send, SEND_RESULT, the images transmitted and the parameters alone (43_send.md
R232). -/
theorem handle_access_frame {e : Event} {s t : State} (ha : s.pend.state = .awaitingAck) (h : s.handle e = .next t)
    (htick : e ≠ .tick) (hiter : e ≠ .iterate) (hreset : e ≠ .reset) :
    t.cfg = s.cfg ∧ t.pend = s.pend ∧ t.sendResult = s.sendResult ∧ t.transmitted = s.transmitted := by
  rcases handle_cases e s t h with
    ⟨-, -, i, -, -, -, hexec⟩ | ⟨-, -, -, -, -, -, rfl⟩ | ⟨-, -, -, -, -, -, rfl⟩ | ⟨-, -, -, -, rfl⟩ |
    ⟨he, -⟩ | ⟨he, -⟩ | ⟨he, -⟩
  · have hrefused : ¬ (isSendCommand i = true ∧ ({ s with busReply := .written } : State).sendRefusal = none) :=
      fun hacc => sendRefusal_ne_none_of_awaiting (s := { s with busReply := .written }) ha hacc.2
    exact ⟨(exec_frame i _ t hexec).1, (exec_send_frame i _ t hexec hrefused).2⟩
  · exact ⟨rfl, rfl, rfl, rfl⟩
  · rw [storeReg_frame]; exact ⟨rfl, rfl, rfl, rfl⟩
  · exact ⟨rfl, rfl, rfl, rfl⟩
  · exact absurd he htick
  · exact absurd he hiter
  · exact absurd he hreset

/-- Settles O39: a host access leaves the send alone, and a send command written to CMD finds it pending. -/
theorem pendingSendIsNotCancelled : Obligations.PendingSendIsNotCancelled := by
  refine fun e s t ha h htick hiter hreset => ⟨(handle_access_frame ha h htick hiter hreset).2.1, ?_⟩
  rintro addr v i rfl hloc hdec hi hrun
  obtain ⟨-, hbusy, -⟩ := sendRefusedInOrder { s with busReply := .written } i hi
  simp only [State.handle, State.hostWrite, hloc, if_pos, executeCommand_of_command hdec, hbusy hrun ha] at h
  exact (Host.Outcome.next.inj h).symm

/-! ### The polling loop -/

/-- With no send pending an ITERATE leaves the Pending Send alone (43_send.md R226, R231). -/
theorem iterate_pend_of_not_awaiting {s : State} (hidle : s.pend.state ≠ .awaitingAck) :
    s.iterate.pend = s.pend := by
  rcases iterate_cases s with ⟨-, h⟩ | ⟨-, -, -, h⟩ | ⟨-, -, h⟩ <;> rw [h]
  · rfl
  · obtain ⟨-, ⟨hp, -⟩ | ⟨ha, -⟩⟩ := poll_pend s
    · rcases timeoutCheck_cases s.poll with ⟨ha, -⟩ | ⟨ha, -⟩ | ⟨-, ht⟩
      · exact absurd (hp ▸ ha) hidle
      · exact absurd (hp ▸ ha) hidle
      · rw [ht, hp]
    · exact absurd ha hidle

/-- What an ITERATE does while a send is pending: nothing, since the block is halted; it hears the send's ACK and the
send is resolved; or it does not hear it, and then comes the timeout check on the send as it was (43_send.md R226,
R228). -/
theorem iterate_cases_of_awaiting {s : State} (ha : s.pend.state = .awaitingAck) :
    s.iterate = s ∨
    (s.hearsItsAck ∧ s.iterate.pend = { s.pend with state := .acked } ∧
      s.iterate.sendResult = ⟨.acked, s.pend.id, s.pend.attempts⟩) ∨
    (¬ s.hearsItsAck ∧ s.iterate = s.poll.timeoutCheck ∧ s.poll.pend = s.pend ∧
      s.poll.sendResult = s.sendResult) := by
  rcases iterate_cases s with ⟨-, h⟩ | ⟨-, -, hidle, -⟩ | ⟨hrun, hstop, h⟩
  · exact Or.inl h
  · exact absurd ha hidle
  · refine Or.inr ?_
    by_cases hears : s.hearsItsAck
    · obtain ⟨hpend, hresult⟩ := poll_of_hearsItsAck s ha hears
      have hdone : s.poll.timeoutCheck = s.poll := if_neg (by simp [hpend])
      exact Or.inl ⟨hears, by rw [h, hdone, hpend], by rw [h, hdone, hresult]⟩
    · have hpend := poll_pend_of_not_hearsItsAck s hrun hstop hears
      obtain ⟨-, ⟨-, hresult⟩ | ⟨-, hacked, -⟩⟩ := poll_pend s
      · exact Or.inr ⟨hears, h, hpend, hresult⟩
      · rw [hpend] at hacked
        have hstate : PState.awaitingAck = .acked := ha.symm.trans (congrArg PendingSend.state hacked)
        exact absurd hstate (by decide)

/-! ### The transitions of PSTATE -/

/-- After either outcome of RESET no send stands (10_state.md R48; 70_reset_and_hazards.md R350, R351). -/
theorem resetEvent_pstate (s : State) : s.resetEvent.pend.state = .idle := by
  cases hinit : s.initAnswer with
  | true => rw [resetEvent_of_init s hinit]; rfl
  | false => rw [resetEvent_of_not_init s hinit]; rfl

/-- At an event boundary a send is pending, or PSTATE is one of the three others that stand (10_state.md R36). -/
theorem pstate_of_not_awaiting {s : State} (hinv : Inv s) (hidle : s.pend.state ≠ .awaitingAck) :
    s.pend.state = .idle ∨ s.pend.state = .acked ∨ s.pend.state = .failed := by
  obtain ⟨hsending, hretrying⟩ := hinv.notTransient
  cases hp : s.pend.state <;> simp_all

/-- What a command does to PSTATE: an accepted SEND_RELIABLE to a unicast destination starts a send or fails it at once,
and no other command changes it (43_send.md R221, R222, R231). -/
theorem exec_pstate_cases (i : Instr) (s t : State) (h : exec i s = .next t) :
    t.pend.state = s.pend.state ∨
      ∃ dest maxRetries, i = .sendReliable dest maxRetries ∧ s.pend.state ≠ .awaitingAck ∧ dest ≠ 0xFF#8 ∧
        ((maxRetries ≠ 0#8 ∧ t.pend.state = .awaitingAck ∧ t.pend.attempts = 1#8 ∧
            t.pend.remain = t.pend.timeout) ∨
          (maxRetries = 0#8 ∧ t.pend.state = .failed ∧ t.tel.failed = s.tel.failed + 1)) := by
  rcases exec_pend i s t h with hpend | ⟨dest, maxRetries, rfl, hacc, rfl⟩
  · exact Or.inl (congrArg PendingSend.state hpend)
  · obtain ⟨-, -, hidle, -⟩ := (sendRefusal_eq_none_iff s).mp hacc
    rcases acceptReliable_cases dest maxRetries s with ⟨-, ht⟩ | ⟨hdest, hmax, ht⟩ | ⟨hdest, hmax, ht⟩ <;> rw [ht]
    · exact Or.inl rfl
    · exact Or.inr ⟨dest, maxRetries, rfl, hidle, hdest, Or.inr ⟨hmax, rfl, rfl⟩⟩
    · exact Or.inr ⟨dest, maxRetries, rfl, hidle, hdest, Or.inl ⟨hmax, rfl, rfl, rfl⟩⟩

/-- What an ITERATE does to PSTATE while a send is pending: nothing, or it hears the send's ACK, or it does not hear it
and finds the timer at 0 and no attempt left (43_send.md R226 to R228). -/
theorem iterate_pstate_cases {s : State} (hinv : Inv s) (ha : s.pend.state = .awaitingAck) :
    s.iterate.pend.state = s.pend.state ∨
    (s.hearsItsAck ∧ s.iterate.pend.state = .acked ∧
      s.iterate.sendResult = ⟨.acked, s.pend.id, s.pend.attempts⟩) ∨
    (¬ s.hearsItsAck ∧ s.iterate.pend.state = .failed ∧ s.pend.remain = 0#32 ∧ s.pend.attempts = s.pend.max ∧
      s.iterate.sendResult.code = .failed ∧ s.iterate.tel.failed = s.tel.failed + 1) := by
  rcases iterate_cases_of_awaiting ha with h | ⟨hears, hpend, hresult⟩ | ⟨hears, h, hpend, -⟩
  · exact Or.inl (by rw [h])
  · exact Or.inr (Or.inl ⟨hears, by rw [hpend], hresult⟩)
  · rw [h]
    rcases timeoutCheck_cases s.poll with ⟨-, -, -, ht⟩ | ⟨-, hzero, hlast, ht⟩ | ⟨-, ht⟩ <;> rw [ht]
    · exact Or.inl ha.symm
    · rw [hpend] at hzero hlast
      have hmax : s.pend.attempts = s.pend.max := BitVec.le_antisymm hinv.attempts (BitVec.not_lt.mp hlast)
      refine Or.inr (Or.inr ⟨hears, rfl, hzero, hmax, rfl, ?_⟩)
      rw [failSend_eq, (poll_pend s).1]
    · exact Or.inl (by rw [hpend])

/-- Settles O42: PSTATE changes in a command, in an ITERATE with a send pending and in RESET, and the invariant that
bounds P_ATTEMPTS is kept by every event. -/
theorem pstateTransitions : Obligations.PstateTransitions := by
  refine fun e s t hinv h => ⟨(handle_keeps_inv e hinv h).attempts, ?_⟩
  rcases handle_cases e s t h with
    ⟨addr, w, i, he, -, hw, hexec⟩ | ⟨-, -, -, -, -, -, rfl⟩ | ⟨-, -, -, -, -, -, rfl⟩ | ⟨-, -, -, -, rfl⟩ |
    ⟨-, rfl⟩ | ⟨he, rfl⟩ | ⟨he, rfl⟩
  · rcases exec_pstate_cases i _ t hexec with hsame | ⟨dest, maxRetries, rfl, hidle, hdest, hsent⟩
    · exact Or.inl hsame
    · exact Or.inr (Or.inr (Or.inl
        ⟨addr, w, dest, maxRetries, he, hw, pstate_of_not_awaiting hinv hidle, hdest, hsent⟩))
  · exact Or.inl rfl
  · rw [storeReg_frame]; exact Or.inl rfl
  · exact Or.inl rfl
  · rw [tick_frame]; exact Or.inl rfl
  · by_cases ha : s.pend.state = .awaitingAck
    · rcases iterate_pstate_cases hinv ha with hsame | hresolved
      · exact Or.inl hsame
      · exact Or.inr (Or.inr (Or.inr ⟨he, ha, hresolved⟩))
    · exact Or.inl (by rw [iterate_pend_of_not_awaiting ha])
  · exact Or.inr (Or.inl ⟨he, resetEvent_pstate s⟩)

end Sys2Proof.Machine
end

section
/-! Retry exhaustion (43_send.md section 4, R229): what one event does to the account of a pending send, the account of
every run of events that ends in its failure, and the tightest schedule. -/

namespace Sys2Proof.Machine

/-! ### The account of a pending send -/

/-- A send is pending, SEND_RESULT shows it, its attempts are within P_MAX, and its image carries the flags of a
reliable send (43_send.md R222, R226; 30_encoding.md R121, R124). -/
structure State.Waits (s : State) : Prop where
  awaiting : s.pend.state = .awaitingAck
  attempts : s.pend.attempts ≤ s.pend.max
  result : s.sendResult = ⟨.pending, s.pend.id, s.pend.attempts⟩
  reliable : byteAt s.pend.image (s.cfg.preambleLen + 5) = flagsReliable

/-- From `s` to `t` the send stayed pending: each attempt begun is a transmission of its image, and the `d` TICKs that
decremented P_REMAIN account for the attempts' waits (43_send.md R225, R226). -/
structure Continues (s : State) (d : Nat) (t : State) : Prop where
  waits : t.Waits
  send : t.pend = { s.pend with attempts := t.pend.attempts, remain := t.pend.remain }
  transmissions : t.transmitted.count s.pend.image + s.pend.attempts.toNat =
    s.transmitted.count s.pend.image + t.pend.attempts.toNat
  time : d + t.pend.remain.toNat + s.pend.attempts.toNat * s.pend.timeout.toNat =
    s.pend.remain.toNat + t.pend.attempts.toNat * s.pend.timeout.toNat

/-- From `s` to `t` the send failed, with all its attempts made and all their waits counted down (43_send.md R227,
R229). -/
structure Exhausts (s : State) (d : Nat) (t : State) : Prop where
  failed : t.pend.state = .failed
  result : t.sendResult = ⟨.failed, s.pend.id, s.pend.max⟩
  transmissions : t.transmitted.count s.pend.image + s.pend.attempts.toNat =
    s.transmitted.count s.pend.image + s.pend.max.toNat
  time : d + s.pend.attempts.toNat * s.pend.timeout.toNat =
    s.pend.remain.toNat + s.pend.max.toNat * s.pend.timeout.toNat

/-- What leaves the send, SEND_RESULT and the parameters alone, and does not transmit the send's image, leaves the
account as it is. -/
theorem State.Waits.continues_of_same {s t : State} (hs : s.Waits) (hcfg : t.cfg = s.cfg) (hpend : t.pend = s.pend)
    (hresult : t.sendResult = s.sendResult)
    (hcount : t.transmitted.count s.pend.image = s.transmitted.count s.pend.image) : Continues s 0 t where
  waits := ⟨hpend ▸ hs.awaiting, hpend ▸ hs.attempts, by rw [hresult, hpend, hs.result],
    by rw [hpend, hcfg, hs.reliable]⟩
  send := by rw [hpend]
  transmissions := by rw [hcount, hpend]
  time := by rw [hpend]; omega

/-- The key, the bounds and the image of a send that stayed pending. -/
theorem Continues.fields {s t : State} {d : Nat} (h : Continues s d t) :
    t.pend.id = s.pend.id ∧ t.pend.max = s.pend.max ∧ t.pend.timeout = s.pend.timeout ∧
      t.pend.image = s.pend.image := by
  rw [h.send]
  exact ⟨rfl, rfl, rfl, rfl⟩

/-- The account of a send that stayed pending and then failed. -/
theorem Continues.exhausts {s t u : State} {d d' : Nat} (hst : Continues s d t) (htu : Exhausts t d' u) :
    Exhausts s (d + d') u := by
  obtain ⟨hid, hmax, htimeout, himage⟩ := hst.fields
  obtain ⟨hfailed, hresult, hcount, htime⟩ := htu
  rw [himage, hmax] at hcount
  rw [htimeout, hmax] at htime
  have hcount' := hst.transmissions
  have htime' := hst.time
  exact ⟨hfailed, by rw [hresult, hid, hmax], by omega, by omega⟩

/-- The account of a send that stayed pending, and stayed pending on. -/
theorem Continues.trans {s t u : State} {d d' : Nat} (hst : Continues s d t) (htu : Continues t d' u) :
    Continues s (d + d') u := by
  obtain ⟨-, -, htimeout, himage⟩ := hst.fields
  obtain ⟨hwaits, hsend, hcount, htime⟩ := htu
  rw [himage] at hcount
  rw [htimeout] at htime
  have hcount' := hst.transmissions
  have htime' := hst.time
  exact ⟨hwaits, by rw [hsend, hst.send], by omega, by omega⟩

/-! ### ACKs among the transmissions -/

/-- An ACK's image is no reliable send's: the flags byte tells them apart (30_encoding.md R121, R124). -/
theorem State.Waits.ackImage_ne {s : State} (hs : s.Waits) (a i : Byte) : s.ackImage a i ≠ s.pend.image := by
  intro he
  have hflags : byteAt (s.ackImage a i) (s.cfg.preambleLen + 5) = 0x01#8 := by
    rw [ackImage_eq, byteAt_wireImage_add]
    rfl
  rw [he, hs.reliable] at hflags
  exact absurd hflags (by decide)

/-- The protocol step transmits nothing, or an ACK (44_receive.md R265, R269). -/
theorem manage_transmitted (f : Frame) (rssi : Rssi) (s : State) :
    (s.manage f rssi).transmitted = s.transmitted ∨
      (s.manage f rssi).transmitted = s.transmitted ++ [s.ackImage f.fromAddr f.id] := by
  rcases manage_cases f rssi s with ⟨-, h⟩ | ⟨-, -, -, h⟩ | ⟨-, -, -, h⟩ | ⟨-, -, -, h⟩ | ⟨-, -, -, h⟩ <;> rw [h]
  · rcases ackMatch_cases f s with ⟨-, -, -, hm⟩ | ⟨-, hm⟩ <;> rw [hm] <;> exact Or.inl rfl
  · exact Or.inr (callTransmitRaw_transmitted _ s)
  · exact Or.inl rfl
  · rw [acceptFresh_eq]; exact Or.inr (callTransmitRaw_transmitted _ _)
  · rw [acceptFresh_eq]; exact Or.inl rfl

/-- A received image makes the block transmit nothing, or an ACK (44_receive.md R263, R269). -/
theorem rxProcess_transmitted (bytes : List Byte) (rssi : Rssi) (s : State) :
    (s.rxProcess bytes rssi).transmitted = s.transmitted ∨
      ∃ a i, (s.rxProcess bytes rssi).transmitted = s.transmitted ++ [s.ackImage a i] := by
  rw [State.rxProcess, callSetMode_transmitted]
  rcases rxOutcome_cases (decodeFrame s.cfg s.conf.sync bytes) rssi s with
    ⟨e, -, h⟩ | ⟨f, -, -, h⟩ | ⟨f, -, -, h⟩ <;> rw [h]
  · rw [countDrop_frame]; exact Or.inl rfl
  · exact Or.inl rfl
  · exact (manage_transmitted f rssi (s.noteRssi f.fromAddr rssi)).imp_right fun hack => ⟨_, _, hack⟩

/-- The receive step of an iteration transmits nothing, or an ACK (44_receive.md R260, R269). -/
theorem poll_transmitted (s : State) :
    s.poll.transmitted = s.transmitted ∨ ∃ a i, s.poll.transmitted = s.transmitted ++ [s.ackImage a i] := by
  rcases poll_cases s with ⟨-, h⟩ | ⟨-, h⟩ <;> rw [h]
  · exact Or.inl (callFrameReady_transmitted s)
  · have htook : s.callFrameReady.callReceiveRaw.transmitted = s.transmitted :=
      (callReceiveRaw_transmitted _).trans (callFrameReady_transmitted s)
    rw [← htook]
    exact rxProcess_transmitted _ _ s.callFrameReady.callReceiveRaw

/-- The receive step of an iteration does not transmit the pending send's image. -/
theorem State.Waits.count_poll {s : State} (hs : s.Waits) :
    s.poll.transmitted.count s.pend.image = s.transmitted.count s.pend.image := by
  rcases poll_transmitted s with h | ⟨a, i, h⟩ <;> rw [h]
  rw [List.count_append, List.count_singleton, if_neg (by simpa using hs.ackImage_ne a i), Nat.add_zero]

/-! ### One event -/

/-- A host access leaves the account of a pending send as it is, whether it is done or answered with an error
(43_send.md R232; 20_memory.md R84). -/
theorem State.Waits.continues_of_access {s : State} (hs : s.Waits) {e : Event} (htick : e ≠ .tick)
    (hiter : e ≠ .iterate) (hreset : e ≠ .reset) : Continues s 0 (s.proceed e) := by
  unfold State.proceed
  split
  · rename_i t ht
    obtain ⟨hcfg, hpend, hresult, htransmitted⟩ := handle_access_frame hs.awaiting ht htick hiter hreset
    exact hs.continues_of_same hcfg hpend hresult (by rw [htransmitted])
  · exact hs.continues_of_same rfl rfl rfl rfl
  · exact hs.continues_of_same rfl rfl rfl rfl

/-- A TICK counts P_REMAIN down once, or finds it at 0 (43_send.md R225). -/
theorem State.Waits.continues_of_tick {s : State} (hs : s.Waits) : Continues s (s.decrements [.tick]) s.tick := by
  simp only [State.decrements, hs.awaiting, true_and, Nat.add_zero]
  rcases tick_cases s with ⟨-, hpos, ht⟩ | ⟨hno, ht⟩ <;> rw [ht]
  · have hcount : 1 + (s.pend.remain - 1).toNat = s.pend.remain.toNat := by bv_omega
    rw [if_pos (by bv_omega)]
    exact ⟨⟨hs.awaiting, hs.attempts, hs.result, hs.reliable⟩, rfl, rfl, by rw [hcount]⟩
  · have hzero : ¬ 0#32 < s.pend.remain := fun hpos => hno ⟨hs.awaiting, hpos⟩
    rw [if_neg (by bv_omega)]
    exact hs.continues_of_same rfl rfl rfl rfl

/-- A retransmission is one transmission of the image and begins one more wait (43_send.md R226). -/
theorem State.Waits.continues_of_retransmit {s : State} (hs : s.Waits) (hzero : s.pend.remain = 0#32)
    (hleft : s.pend.attempts < s.pend.max) : Continues s 0 s.retransmit := by
  have hnext : (s.pend.attempts + 1).toNat = s.pend.attempts.toNat + 1 := by bv_omega
  have hcount := congrArg (List.count s.pend.image) (retransmit_transmitted s)
  rw [List.count_append, List.count_singleton_self] at hcount
  refine ⟨⟨rfl, ?_, ?_, hs.reliable⟩, ?_, ?_, ?_⟩
  · simp only [retransmit_eq]
    bv_omega
  · simp only [retransmit_eq, hs.result]
  · simp only [retransmit_eq, hs.awaiting]
  · rw [hcount]
    simp only [retransmit_eq, hnext]
    omega
  · simp only [retransmit_eq, hnext, hzero, Nat.add_mul, BitVec.toNat_zero]
    omega

/-- A timeout check with no attempt left ends the account (43_send.md R227). -/
theorem State.Waits.exhausts_of_failSend {s : State} (hs : s.Waits) (hzero : s.pend.remain = 0#32)
    (hlast : ¬ s.pend.attempts < s.pend.max) : Exhausts s 0 s.failSend := by
  have hmax : s.pend.attempts = s.pend.max := BitVec.le_antisymm hs.attempts (BitVec.not_lt.mp hlast)
  refine ⟨rfl, ?_, ?_, ?_⟩
  · simp only [failSend_eq, hs.result, hmax]
  · rw [hmax]
    rfl
  · rw [hmax, hzero, BitVec.toNat_zero]

/-- What an ITERATE does to the account of a pending send: it goes on, it ends with the send's failure, or the send's
ACK is heard (43_send.md R226 to R228). -/
theorem State.Waits.iterate_cases {s : State} (hs : s.Waits) :
    Continues s 0 s.iterate ∨ Exhausts s 0 s.iterate ∨ s.iterate.pend.state = .acked := by
  rcases iterate_cases_of_awaiting hs.awaiting with h | ⟨-, hpend, -⟩ | ⟨-, h, hpend, hresult⟩
  · rw [h]
    exact Or.inl (hs.continues_of_same rfl rfl rfl rfl)
  · exact Or.inr (Or.inr (by rw [hpend]))
  · have hcfg : s.poll.cfg = s.cfg := by rw [poll_frame]
    have hpoll : Continues s 0 s.poll := hs.continues_of_same hcfg hpend hresult hs.count_poll
    rw [h]
    rcases timeoutCheck_cases s.poll with ⟨-, hzero, hleft, ht⟩ | ⟨-, hzero, hlast, ht⟩ | ⟨-, ht⟩ <;> rw [ht]
    · exact Or.inl (hpoll.trans (hpoll.waits.continues_of_retransmit hzero hleft))
    · exact Or.inr (Or.inl (hpoll.exhausts (hpoll.waits.exhausts_of_failSend hzero hlast)))
    · exact Or.inl hpoll

/-- What one event does to the account of a pending send: it goes on, it ends with the send's failure, or the send is
resolved otherwise (43_send.md R231). -/
theorem State.Waits.proceed_cases {s : State} (hs : s.Waits) (e : Event) :
    Continues s (s.decrements [e]) (s.proceed e) ∨ Exhausts s (s.decrements [e]) (s.proceed e) ∨
      ((s.proceed e).pend.state = .acked ∨ (s.proceed e).pend.state = .idle) := by
  cases e with
  | hostWrite addr size v => exact Or.inl (hs.continues_of_access nofun nofun nofun)
  | hostRead addr size => exact Or.inl (hs.continues_of_access nofun nofun nofun)
  | tick => exact Or.inl hs.continues_of_tick
  | iterate => exact hs.iterate_cases.imp_right (Or.imp_right Or.inl)
  | reset => exact Or.inr (Or.inr (Or.inr (resetEvent_pstate s)))

/-! ### Every order of events -/

/-- The TICKs that decrement P_REMAIN, the first event and then the rest. -/
theorem decrements_cons (s : State) (e : Event) (rest : List Event) :
    s.decrements (e :: rest) = s.decrements [e] + (s.proceed e).decrements rest := by
  simp [State.decrements]

/-- Only TICKs decrement P_REMAIN (43_send.md R225). -/
theorem decrements_le_ticks (es : List Event) (s : State) :
    s.decrements es ≤ (es.filter fun e => e == .tick).length := by
  induction es generalizing s with
  | nil => exact Nat.le_refl 0
  | cons e rest ih =>
    have hrest := ih (s.proceed e)
    have hhead : s.decrements [e] ≤ ([e].filter fun e => e == .tick).length := by
      by_cases he : e = .tick
      · subst he
        simp only [State.decrements]
        split <;> simp
      · simp [State.decrements, he]
    have hsplit : (e :: rest).filter (fun e => e == .tick) =
        [e].filter (fun e => e == .tick) ++ rest.filter fun e => e == .tick := List.filter_append [e] rest
    rw [decrements_cons, hsplit, List.length_append]
    omega

/-- A send that is pending up to the last event and then has failed has its account closed (43_send.md R229). -/
theorem State.Waits.exhausts_of_runEvents (es : List Event) {s : State} (hs : s.Waits)
    (hpending : ∀ n < es.length, (s.runEvents (es.take n)).pend.state = .awaitingAck)
    (hfailed : (s.runEvents es).pend.state = .failed) : Exhausts s (s.decrements es) (s.runEvents es) := by
  induction es generalizing s with
  | nil => exact absurd (hs.awaiting.symm.trans hfailed) (by decide)
  | cons e rest ih =>
    have hnext : rest = [] ∨ (s.proceed e).pend.state = .awaitingAck := by
      rcases rest with - | ⟨e', rest'⟩
      · exact Or.inl rfl
      · exact Or.inr (hpending 1 (by simp))
    rcases hs.proceed_cases e with hgo | hend | hother
    · rw [decrements_cons]
      exact hgo.exhausts (ih hgo.waits (fun n hn => hpending (n + 1) (Nat.succ_lt_succ hn)) hfailed)
    · rcases hnext with rfl | ha
      · exact hend
      · exact absurd (ha.symm.trans hend.failed) (by decide)
    · rcases hnext with rfl | ha
      · have hstate : (s.proceed e).pend.state = .failed := hfailed
        rw [hstate] at hother
        exact absurd hother (by decide)
      · rw [ha] at hother
        exact absurd hother (by decide)

end Sys2Proof.Machine
end

section
/-! Retry exhaustion (43_send.md section 4, R229), concluded: the tightest schedule with no frame heard, and the
obligation from it and from the account of every order of events. -/

namespace Sys2Proof.Machine

theorem proceed_tick (s : State) : s.proceed .tick = s.tick := rfl

theorem proceed_iterate (s : State) : s.proceed .iterate = s.iterate := rfl

theorem runEvents_cons (e : Event) (rest : List Event) (s : State) :
    s.runEvents (e :: rest) = (s.proceed e).runEvents rest := rfl

theorem runEvents_append (es es' : List Event) (s : State) :
    s.runEvents (es ++ es') = (s.runEvents es).runEvents es' :=
  List.foldl_append

/-- Whether the block runs is read off the run-control bits (10_state.md R34). -/
theorem running_of_run_eq {s t : State} (h : t.run = s.run) (hs : s.running = true) : t.running = true := by
  rw [State.running, h]
  exact hs

/-! ### The schedule -/

/-- One more transmission is one more wait and one more ITERATE, at the schedule's end. -/
theorem failSchedule_succ (m a : Nat) :
    failSchedule (m + 1) a = failSchedule m a ++ List.replicate a .tick ++ [.iterate] := by
  simp [failSchedule, List.replicate_succ']

/-- The schedule places nothing but TICKs and ITERATEs. -/
theorem mem_failSchedule {m a : Nat} {e : Event} (h : e ∈ failSchedule m a) : e = .tick ∨ e = .iterate := by
  obtain ⟨round, hround, he⟩ := List.mem_flatten.mp h
  rw [List.eq_of_mem_replicate hround] at he
  rcases List.mem_append.mp he with htick | hiter
  · exact Or.inl (List.eq_of_mem_replicate htick)
  · exact Or.inr (List.mem_singleton.mp hiter)

/-- The schedule has `ackTimeout` TICKs for each transmission (43_send.md R229). -/
theorem ticks_failSchedule (m a : Nat) : ((failSchedule m a).filter fun e => e == .tick).length = m * a := by
  induction m with
  | zero => simp [failSchedule]
  | succ m ih => simp [failSchedule_succ, ih, Nat.succ_mul]

/-- TICKs and ITERATEs start no send (43_send.md R225, R226, R231). -/
theorem runEvents_not_awaiting {es : List Event} (hes : ∀ e ∈ es, e = .tick ∨ e = .iterate) {s : State}
    (hidle : s.pend.state ≠ .awaitingAck) : (s.runEvents es).pend.state ≠ .awaitingAck := by
  induction es generalizing s with
  | nil => exact hidle
  | cons e rest ih =>
    refine ih (fun e' he' => hes e' (List.mem_cons_of_mem e he')) (s := s.proceed e) ?_
    rcases hes e List.mem_cons_self with rfl | rfl
    · rw [proceed_tick, tick_frame]
      exact hidle
    · rw [proceed_iterate, iterate_pend_of_not_awaiting hidle]
      exact hidle

/-! ### One wait and its end -/

/-- The state in which the wait of the current attempt is over (43_send.md R225). -/
def State.expired (s : State) : State := { s with pend := { s.pend with remain := 0#32 } }

/-- TICKs count P_REMAIN down one by one (43_send.md R225). -/
theorem runEvents_ticks (k : Nat) {s : State} (ha : s.pend.state = .awaitingAck) (hk : k ≤ s.pend.remain.toNat) :
    s.runEvents (List.replicate k .tick) =
      { s with pend := { s.pend with remain := s.pend.remain - BitVec.ofNat 32 k } } := by
  induction k generalizing s with
  | zero => simp [State.runEvents]
  | succ k ih =>
    rcases tick_cases s with ⟨-, -, ht⟩ | ⟨hno, -⟩
    · have hrest : (s.pend.remain - 1) - BitVec.ofNat 32 k = s.pend.remain - BitVec.ofNat 32 (k + 1) := by bv_omega
      have hawaiting : s.tick.pend.state = .awaitingAck := by rw [ht]; exact ha
      have hleft : k ≤ s.tick.pend.remain.toNat := by
        have hone : (s.pend.remain - 1).toNat = s.pend.remain.toNat - 1 := by bv_omega
        rw [ht]
        exact hone ▸ Nat.le_sub_one_of_lt hk
      rw [List.replicate_succ, runEvents_cons, proceed_tick, ih hawaiting hleft, ht]
      simp only [hrest]
    · exact absurd ⟨ha, BitVec.lt_def.mpr (by rw [BitVec.toNat_zero]; omega)⟩ hno

/-- `ackTimeout` TICKs end a wait that has just begun (43_send.md R225). -/
theorem runEvents_wait {s : State} (ha : s.pend.state = .awaitingAck) (hfull : s.pend.remain = s.pend.timeout) :
    s.runEvents (List.replicate s.pend.timeout.toNat .tick) = s.expired := by
  have hk : s.pend.timeout.toNat ≤ s.pend.remain.toNat := by rw [hfull]
  rw [runEvents_ticks _ ha hk, hfull, BitVec.ofNat_toNat, BitVec.setWidth_eq, BitVec.sub_self]
  rfl

/-- An ITERATE of a running block with a send pending that finds no frame is a timeout check (44_receive.md R260). -/
theorem iterate_of_not_ready {s : State} (hrun : s.running = true) (ha : s.pend.state = .awaitingAck)
    (hready : s.readyAnswer = false) : s.iterate = s.callFrameReady.timeoutCheck := by
  rcases iterate_cases s with ⟨hhalted, -⟩ | ⟨-, -, hidle, -⟩ | ⟨-, -, h⟩
  · exact absurd (hrun.symm.trans hhalted) (by decide)
  · exact absurd ha hidle
  · rcases poll_cases s with ⟨-, hp⟩ | ⟨hheard, -⟩
    · rw [h, hp]
    · exact absurd (hheard.symm.trans hready) (by decide)

/-! ### The rounds of the schedule -/

/-- A send right after its first attempt, in a running block that hears nothing for as many polls as the send has
transmissions (43_send.md R222, R229). -/
structure QuietStart (t : State) : Prop where
  waits : t.Waits
  running : t.running = true
  first : t.pend.attempts = 1#8
  full : t.pend.remain = t.pend.timeout
  quiet : ∃ rest, t.trx.readies = List.replicate t.pend.max.toNat false ++ rest

/-- `u` is `t` after `j` rounds of the schedule that each ended in a retransmission (43_send.md R226). -/
structure AfterRounds (t : State) (j : Nat) (u : State) : Prop where
  running : u.running = true
  pend : u.pend = { t.pend with attempts := BitVec.ofNat 8 (j + 1) }
  quiet : ∃ rest, u.trx.readies = List.replicate (t.pend.max.toNat - j) false ++ rest
  transmitted : u.transmitted = t.transmitted ++ List.replicate j t.pend.image
  failed : u.tel.failed = t.tel.failed
  retried : u.tel.retried = t.tel.retried + BitVec.ofNat 32 j

theorem QuietStart.afterRounds_zero {t : State} (ht : QuietStart t) : AfterRounds t 0 t where
  running := ht.running
  pend := by rw [show BitVec.ofNat 8 (0 + 1) = t.pend.attempts from ht.first.symm]
  quiet := ht.quiet
  transmitted := by simp
  failed := rfl
  retried := by simp

theorem AfterRounds.awaiting {t u : State} {j : Nat} (ht : QuietStart t) (h : AfterRounds t j u) :
    u.pend.state = .awaitingAck := by
  rw [h.pend]
  exact ht.waits.awaiting

/-- A round's TICKs end the wait of its attempt. -/
theorem AfterRounds.runEvents_wait {t u : State} {j : Nat} (ht : QuietStart t) (h : AfterRounds t j u) :
    u.runEvents (List.replicate t.pend.timeout.toNat .tick) = u.expired := by
  have hfull : u.pend.remain = u.pend.timeout := by rw [h.pend]; exact ht.full
  have htimeout : u.pend.timeout = t.pend.timeout := by rw [h.pend]
  exact htimeout ▸ Machine.runEvents_wait (h.awaiting ht) hfull

/-- The polls to come, while a round is left: the next one finds no frame. -/
theorem AfterRounds.readies {t u : State} {j : Nat} (h : AfterRounds t j u) (hj : j < t.pend.max.toNat) :
    ∃ rest, u.trx.readies = false :: (List.replicate (t.pend.max.toNat - (j + 1)) false ++ rest) := by
  obtain ⟨rest, hquiet⟩ := h.quiet
  have hone : t.pend.max.toNat - j = t.pend.max.toNat - (j + 1) + 1 := by omega
  exact ⟨rest, by rw [hquiet, hone, List.replicate_succ, List.cons_append]⟩

/-- A round's ITERATE finds no frame and is a timeout check. -/
theorem AfterRounds.iterate_expired {t u : State} {j : Nat} (ht : QuietStart t) (h : AfterRounds t j u)
    (hj : j < t.pend.max.toNat) : u.expired.iterate = u.expired.callFrameReady.timeoutCheck := by
  obtain ⟨rest, hreadies⟩ := h.readies hj
  have hpolls : u.expired.trx.readies = false :: (List.replicate (t.pend.max.toNat - (j + 1)) false ++ rest) := hreadies
  have ha : u.pend.state = .awaitingAck := h.awaiting ht
  refine iterate_of_not_ready (s := u.expired) h.running ha ?_
  simp only [State.readyAnswer, hpolls]

/-- Whether an attempt is left, by the rounds: the attempts made fit a byte, since P_MAX does (43_send.md R231). -/
theorem AfterRounds.attempts_lt_iff {t u : State} {j : Nat} (h : AfterRounds t j u) (hj : j < t.pend.max.toNat) :
    u.pend.attempts < u.pend.max ↔ j + 1 < t.pend.max.toNat := by
  have hbyte : j + 1 < 2 ^ 8 := by omega
  rw [h.pend, BitVec.lt_def, BitVec.toNat_ofNat, Nat.mod_eq_of_lt hbyte]

/-- A round before the last ends in a retransmission (43_send.md R226). -/
theorem AfterRounds.iterate_next {t u : State} {j : Nat} (ht : QuietStart t) (h : AfterRounds t j u)
    (hj : j + 1 < t.pend.max.toNat) : u.expired.iterate = u.expired.callFrameReady.retransmit := by
  have hlt : j < t.pend.max.toNat := by omega
  have ha : u.pend.state = .awaitingAck := h.awaiting ht
  rw [h.iterate_expired ht hlt]
  exact (if_pos ⟨ha, rfl⟩).trans (if_pos ((h.attempts_lt_iff hlt).mpr hj))

/-- The last round ends in the send's failure (43_send.md R227). -/
theorem AfterRounds.iterate_last {t u : State} {j : Nat} (ht : QuietStart t) (h : AfterRounds t j u)
    (hj : j + 1 = t.pend.max.toNat) : u.expired.iterate = u.expired.callFrameReady.failSend := by
  have hlt : j < t.pend.max.toNat := by omega
  have ha : u.pend.state = .awaitingAck := h.awaiting ht
  have hlast : ¬ u.pend.attempts < u.pend.max := by
    rw [h.attempts_lt_iff hlt]
    omega
  rw [h.iterate_expired ht hlt]
  exact (if_pos ⟨ha, rfl⟩).trans (if_neg hlast)

theorem AfterRounds.succ {t u : State} {j : Nat} (ht : QuietStart t) (h : AfterRounds t j u)
    (hj : j + 1 < t.pend.max.toNat) : AfterRounds t (j + 1) u.expired.iterate := by
  obtain ⟨rest, hreadies⟩ := h.readies (by omega)
  have hsent : u.expired.callFrameReady.retransmit.transmitted = u.transmitted ++ [u.pend.image] :=
    (retransmit_transmitted u.expired.callFrameReady).trans
      (congrArg (· ++ [u.pend.image]) (callFrameReady_transmitted u.expired))
  have hattempt : BitVec.ofNat 8 (j + 1) + 1 = BitVec.ofNat 8 (j + 1 + 1) := (BitVec.ofNat_add (j + 1) 1).symm
  have hretried : BitVec.ofNat 32 j + 1 = BitVec.ofNat 32 (j + 1) := (BitVec.ofNat_add j 1).symm
  rw [h.iterate_next ht hj]
  constructor
  case running =>
    refine running_of_run_eq (s := u) ?_ h.running
    simp only [retransmit_eq, callFrameReady_run, State.expired]
  case quiet =>
    simp only [retransmit_eq, callFrameReady_trx, State.expired, hreadies, List.tail_cons]
    exact ⟨rest, rfl⟩
  case pend =>
    simp only [retransmit_eq, callFrameReady_pend, State.expired, h.pend, ht.waits.awaiting, ht.full, hattempt]
  case transmitted => rw [hsent, h.transmitted, h.pend, List.append_assoc, ← List.replicate_succ']
  case failed => simp only [retransmit_eq, callFrameReady_tel, State.expired, h.failed]
  case retried =>
    simp only [retransmit_eq, callFrameReady_tel, State.expired, h.retried, BitVec.add_assoc, hretried]

/-- After `j` rounds of the schedule, all before the last. -/
theorem QuietStart.afterRounds {t : State} (ht : QuietStart t) (j : Nat) (hj : j < t.pend.max.toNat) :
    AfterRounds t j (t.runEvents (failSchedule j t.pend.timeout.toNat)) := by
  induction j with
  | zero => exact ht.afterRounds_zero
  | succ j ih =>
    have h := ih (by omega)
    rw [failSchedule_succ, runEvents_append, runEvents_append, h.runEvents_wait ht]
    exact h.succ ht hj

/-- What the tightest schedule makes of a send that hears nothing, `u` being the state at its end (43_send.md R229). -/
structure FailsTight (t u : State) (schedule : List Event) : Prop where
  pending : ∀ n < schedule.length, (t.runEvents (schedule.take n)).pend.state = .awaitingAck
  failed : u.pend.state = .failed
  transmitted : u.transmitted = t.transmitted ++ List.replicate (t.pend.max.toNat - 1) t.pend.image
  countFailed : u.tel.failed = t.tel.failed + 1
  countRetried : u.tel.retried = t.tel.retried + BitVec.ofNat 32 (t.pend.max.toNat - 1)

theorem QuietStart.failsTight {t : State} (ht : QuietStart t) (hmax : t.pend.max ≠ 0#8) :
    FailsTight t (t.runEvents (failSchedule t.pend.max.toNat t.pend.timeout.toNat))
      (failSchedule t.pend.max.toNat t.pend.timeout.toNat) := by
  obtain ⟨j, hj⟩ : ∃ j, j + 1 = t.pend.max.toNat := ⟨t.pend.max.toNat - 1, by bv_omega⟩
  have hj' : t.pend.max.toNat - 1 = j := by omega
  have h := ht.afterRounds j (by omega)
  have ha : (t.runEvents (failSchedule j t.pend.timeout.toNat)).pend.state = .awaitingAck := h.awaiting ht
  have hwaiting : (t.runEvents (failSchedule j t.pend.timeout.toNat ++
      List.replicate t.pend.timeout.toNat .tick)).pend.state = .awaitingAck := by
    rw [runEvents_append, h.runEvents_wait ht]
    exact ha
  have hend : t.runEvents (failSchedule (j + 1) t.pend.timeout.toNat) =
      (t.runEvents (failSchedule j t.pend.timeout.toNat)).expired.callFrameReady.failSend := by
    rw [failSchedule_succ, runEvents_append, runEvents_append, h.runEvents_wait ht]
    exact h.iterate_last ht hj
  rw [← hj]
  refine ⟨fun n hn => ?_, by rw [hend]; rfl, ?_, ?_, ?_⟩
  · rw [failSchedule_succ] at hn ⊢
    rw [List.length_append, List.length_singleton, Nat.lt_succ_iff] at hn
    rw [List.take_append_of_le_length hn]
    by_contra hidle
    rw [← List.take_append_drop n (failSchedule j _ ++ _), runEvents_append] at hwaiting
    refine runEvents_not_awaiting (fun e he => ?_) hidle hwaiting
    rcases List.mem_append.mp (List.mem_of_mem_drop he) with hround | htick
    · exact mem_failSchedule hround
    · exact Or.inl (List.eq_of_mem_replicate htick)
  · rw [hend, hj']
    exact (callFrameReady_transmitted _).trans h.transmitted
  · rw [hend]
    exact congrArg (· + 1) h.failed
  · rw [hend, hj']
    exact h.retried

/-! ### The obligation -/

/-- The state right after an accepted SEND_RELIABLE to a unicast destination with a transmission allowed: what the
account of the send starts from (43_send.md R221, R222). -/
structure SendStarted (s : State) (dest maxRetries : Byte) (t : State) : Prop where
  waits : t.Waits
  send : t.pend = ⟨.awaitingAck, dest, s.txSeq, 1#8, maxRetries, s.ackTimeout, s.ackTimeout, t.pend.image⟩
  transmitted : t.transmitted = s.transmitted ++ [t.pend.image]
  cfg : t.cfg = s.cfg
  run : t.run = s.run
  tel : t.tel = s.tel
  readies : t.trx.readies = s.trx.readies

theorem sendStarted {s t : State} {dest maxRetries : Byte} (hacc : s.sendRefusal = none) (hdest : dest ≠ 0xFF#8)
    (hmax : maxRetries ≠ 0#8) (h : exec (.sendReliable dest maxRetries) s = .next t) :
    SendStarted s dest maxRetries t := by
  obtain ⟨hfatal, hstopped, hidle, hfits⟩ := (sendRefusal_eq_none_iff s).mp hacc
  have hrun : s.running = true := (running_iff s).mpr ⟨hfatal, hstopped⟩
  obtain ⟨-, -, haccepted⟩ := sendReliableUnicast
  obtain ⟨image, ticks, himage, rfl, ht⟩ := haccepted s dest maxRetries hrun hidle hfits hdest hmax
  have hreliable : byteAt image (s.cfg.preambleLen + 5) = flagsReliable := by
    rw [encodeFrame_eq_image _ _ _ _ _ _ _ _ himage, byteAt_wireImage_add]
    rfl
  have hfirst : 1#8 ≤ maxRetries := by bv_omega
  cases h.symm.trans ht
  refine ⟨⟨rfl, hfirst, rfl, hreliable⟩, rfl, ?_, rfl, rfl, rfl, rfl⟩
  exact transmitted_of_trace_append (calls := [.transmitRaw image, .setMode .receive]) rfl

/-- A block that hears nothing after an accepted send starts quietly (43_send.md R229). -/
theorem SendStarted.quietStart {s t : State} {dest maxRetries : Byte} (h : SendStarted s dest maxRetries t)
    (hacc : s.sendRefusal = none) (rest : List Bool)
    (hquiet : s.trx.readies = List.replicate maxRetries.toNat false ++ rest) : QuietStart t := by
  obtain ⟨hfatal, hstopped, -, -⟩ := (sendRefusal_eq_none_iff s).mp hacc
  have hrun : s.running = true := (running_iff s).mpr ⟨hfatal, hstopped⟩
  refine ⟨h.waits, running_of_run_eq h.run hrun, ?_, ?_, ⟨rest, ?_⟩⟩
  · rw [h.send]
  · rw [h.send]
  · rw [h.readies, h.send]
    exact hquiet

/-- `ackTimeout` as a number (30_encoding.md R113). -/
theorem ackTimeout_toNat (s : State) : s.ackTimeout.toNat = s.data.arg.toNat % 2 ^ s.cfg.tW := by
  rw [State.ackTimeout, lowBits, BitVec.toNat_ofNat]
  exact Nat.mod_eq_of_lt ((Nat.mod_le _ _).trans_lt s.data.arg.isLt)

/-- The fields that the account of a started send names. -/
theorem SendStarted.fields {s t : State} {dest maxRetries : Byte} (h : SendStarted s dest maxRetries t) :
    t.pend.id = s.txSeq ∧ t.pend.max = maxRetries ∧ t.pend.attempts = 1#8 ∧ t.pend.remain = t.pend.timeout ∧
      t.pend.timeout.toNat = s.data.arg.toNat % 2 ^ s.cfg.tW := by
  rw [h.send]
  exact ⟨rfl, rfl, rfl, rfl, ackTimeout_toNat s⟩

/-- Settles O43: the tightest schedule is followed round by round (`QuietStart.failsTight`), and every order of events
by the account of the send (`State.Waits.exhausts_of_runEvents`). -/
theorem retryExhaustion : Obligations.RetryExhaustion := by
  intro s t dest maxRetries hacc hdest hmax hexec
  have h := sendStarted hacc hdest hmax hexec
  obtain ⟨hid, hpmax, hfirst, hfull, htimeout⟩ := h.fields
  have hdelay : t.failureDelay = maxRetries.toNat * (s.data.arg.toNat % 2 ^ s.cfg.tW) * s.cfg.tickPeriod := by
    rw [State.failureDelay, hpmax, htimeout, h.cfg]
  refine ⟨fun rest hquiet => ?_, fun es hpending hfailed => ?_⟩
  · have htight := (h.quietStart hacc rest hquiet).failsTight (hpmax ▸ hmax)
    rw [hpmax, htimeout] at htight
    have hend := h.waits.exhausts_of_runEvents _ htight.pending htight.failed
    have hpos : maxRetries.toNat = 1 + (maxRetries.toNat - 1) := by bv_omega
    refine ⟨htight.pending, htight.failed, ?_, ?_, ?_, ?_, ?_⟩
    · rw [hend.result, hid, hpmax]
    · rw [htight.transmitted, h.transmitted, hpmax, List.append_assoc, ← List.replicate_one,
        List.replicate_append_replicate, ← hpos]
    · rw [htight.countFailed, h.tel]
    · rw [htight.countRetried, h.tel, hpmax]
    · rw [ticks_failSchedule, hdelay]
  · have hend := h.waits.exhausts_of_runEvents es hpending hfailed
    have hcount := hend.transmissions
    have htime := hend.time
    rw [h.transmitted, List.count_append, List.count_singleton_self, hpmax, hfirst] at hcount
    rw [hfirst, hfull, hpmax, htimeout] at htime
    have hdecrements : t.decrements es = maxRetries.toNat * (s.data.arg.toNat % 2 ^ s.cfg.tW) := by
      simp only [BitVec.toNat_ofNat] at htime
      omega
    refine ⟨by rw [hend.result, hid, hpmax], ?_, hdecrements, ?_⟩
    · simp only [BitVec.toNat_ofNat] at hcount
      omega
    · rw [hdelay, ← hdecrements]
      exact Nat.mul_le_mul_right _ (decrements_le_ticks es t)

end Sys2Proof.Machine
end

section
/-! The receive engine and the polling loop (44_receive.md): the calls of a poll, what it makes of a dropped image, a data
frame and an ACK frame, the timeout check that follows it, and RXQ_POP. -/

namespace Sys2Proof.Machine

/-! ### What the tests of a frame say -/

theorem isDuplicate_iff (s : State) (f : Frame) :
    s.isDuplicate f = true ↔ (s.peerAt f.fromAddr).idValid = true ∧ (s.peerAt f.fromAddr).lastId = f.id := by
  simp [State.isDuplicate]

theorem ackEligible_iff (f : Frame) :
    ackEligible f = true ↔ f.toAddr ≠ 0xFF#8 ∧ f.flags.getLsbD 1 = false := by
  simp [ackEligible, noAckNeeded, broadcast]

/-- A reading noted before the protocol step does not make a duplicate (44_receive.md R264, R266). -/
theorem isDuplicate_noteRssi (a : Byte) (rssi : Rssi) (f : Frame) (s : State) :
    (s.noteRssi a rssi).isDuplicate f = s.isDuplicate f := by
  obtain ⟨hvalid, hid⟩ := peerAt_of_withoutTelemetry _ _ (noteRssi_withoutTelemetry a rssi s) f.fromAddr
  simp only [State.isDuplicate, hvalid, hid]

/-- The entries after a reading was noted (44_receive.md R264). -/
theorem peerAt_noteRssi (a b : Byte) (rssi : Rssi) (s : State) :
    (s.noteRssi a rssi).peerAt b =
      if b = a then { s.peerAt b with rssiValid := true, rssi := rssi } else s.peerAt b := by
  refine (peerAt_setPeer a b _ { s with tel := { s.tel with lastRssi := rssi, lastRssiValid := true } }).trans ?_
  split
  next hb => rw [hb]; rfl
  next => rfl

/-- Encoding an ACK never fails (44_receive.md R269). -/
theorem encodeFrame_ack (s : State) (a i : Byte) :
    encodeFrame s.cfg s.conf.sync a s.conf.self i 0x01#8 [] = .image (s.ackImage a i) := by
  rw [ackImage_eq]
  exact if_neg (Nat.not_lt_zero _)

/-! ### The timeout check -/

/-- The timeout check of a pending send at the end of a wait, with attempts left (43_send.md R226). -/
theorem timeoutCheck_of_attempts_left {s : State} (ha : s.pend.state = .awaitingAck) (hzero : s.pend.remain = 0#32)
    (hleft : s.pend.attempts < s.pend.max) :
    s.timeoutCheck =
      { s with
        pend := { s.pend with attempts := s.pend.attempts + 1, remain := s.pend.timeout }
        sendResult := { s.sendResult with attempts := s.pend.attempts + 1 }
        tel := { s.tel with retried := s.tel.retried + 1 }
        trace := s.trace ++ [.transmitRaw s.pend.image, .setMode .receive]
        trx := { s.trx with
          transmits := s.trx.transmits.tail, answered := s.trx.answered ++ [.transmitRaw s.transmitAnswer] } } := by
  rw [State.timeoutCheck, if_pos ⟨ha, hzero⟩, if_pos hleft, retransmit_eq, List.append_assoc, ← ha]
  rfl

/-- The timeout check of a pending send at the end of its last wait (43_send.md R226, R227). -/
theorem timeoutCheck_of_no_attempt_left {s : State} (ha : s.pend.state = .awaitingAck)
    (hzero : s.pend.remain = 0#32) (hlast : ¬ s.pend.attempts < s.pend.max) : s.timeoutCheck = s.failSend := by
  rw [State.timeoutCheck, if_pos ⟨ha, hzero⟩, if_neg hlast]

/-- Within a wait, or with no send pending, the timeout check does nothing (43_send.md R226). -/
theorem timeoutCheck_of_not_expired {s : State} (h : s.pend.state ≠ .awaitingAck ∨ s.pend.remain ≠ 0#32) :
    s.timeoutCheck = s :=
  if_neg (not_and_or.mpr h)

/-- The calls of a timeout check: none, or those of one retransmission (43_send.md R226). -/
theorem timeoutCheck_trace (s : State) :
    ∃ resent, s.timeoutCheck.trace = s.trace ++ resent ∧
      (resent = [] ∨ resent = [.transmitRaw s.pend.image, .setMode .receive]) := by
  rcases timeoutCheck_cases s with ⟨-, -, -, h⟩ | ⟨-, -, -, h⟩ | ⟨-, h⟩ <;> rw [h]
  · exact ⟨_, by rw [retransmit_eq, List.append_assoc]; rfl, Or.inr rfl⟩
  · exact ⟨[], (List.append_nil _).symm, Or.inl rfl⟩
  · exact ⟨[], (List.append_nil _).symm, Or.inl rfl⟩

/-! ### The iteration -/

/-- An iteration that neither is halted nor exits is a poll and a timeout check (44_receive.md R260). -/
theorem iterate_of_running {s : State} (hrun : s.running = true)
    (hstop : s.run.stopReq = true → s.pend.state = .awaitingAck) : s.iterate = s.poll.timeoutCheck := by
  rcases iterate_cases s with ⟨hhalted, -⟩ | ⟨-, hreq, hidle, -⟩ | ⟨-, -, h⟩
  · exact absurd (hrun.symm.trans hhalted) (by decide)
  · exact absurd (hstop hreq) hidle
  · exact h

/-- A poll that finds nothing is one call and its answer (44_receive.md R260, R262). -/
theorem callFrameReady_of_hearsNothing {s : State} (h : s.hearsNothing) :
    s.callFrameReady =
      { s with
        trace := s.trace ++ [.frameReady]
        trx := { s.trx with
          readies := s.trx.readies.tail, answered := s.trx.answered ++ [.frameReady false] } } := by
  obtain ⟨-, -, hready⟩ := h
  rw [← hready]
  rfl

/-- An iteration that hears nothing asks, and then comes the timeout check (44_receive.md R260). -/
theorem iterate_of_hearsNothing {s : State} (h : s.hearsNothing) : s.iterate = s.callFrameReady.timeoutCheck := by
  obtain ⟨hrun, hstop, hready⟩ := h
  rcases poll_cases s with ⟨-, hpoll⟩ | ⟨hheard, -⟩
  · rw [iterate_of_running hrun hstop, hpoll]
  · exact absurd (hheard.symm.trans hready) (by decide)

/-- The loop's exit (44_receive.md R261). -/
theorem loopExit_eq (s : State) :
    s.loopExit =
      { s with run := ⟨s.run.fatal, s.run.stopReq, true⟩, trace := s.trace ++ [.setMode .idle] } :=
  rfl

/-- Settles O45: the two early returns of ITERATE. -/
theorem loopExit : Obligations.LoopExit := by
  refine fun s => ⟨fun hhalted => ?_, fun hfatal hstopped hreq hidle => ?_⟩
  · rcases iterate_cases s with ⟨-, h⟩ | ⟨hrun, -⟩ | ⟨hrun, -⟩
    · rw [State.handle, h]
    all_goals
      obtain ⟨hfatal, hstopped⟩ := (running_iff s).mp hrun
      exact absurd hhalted (by simp [hfatal, hstopped])
  · rcases iterate_cases s with ⟨hno, -⟩ | ⟨-, -, -, h⟩ | ⟨-, hstop, -⟩
    · exact absurd (((running_iff s).mpr ⟨hfatal, hstopped⟩).symm.trans hno) (by decide)
    · rw [State.handle, h, loopExit_eq, hfatal, hreq]
    · exact absurd (hstop hreq) hidle

/-- Settles O41: what the iteration heard, and then each case of the timeout check. -/
theorem timeoutRetransmitsOrFails : Obligations.TimeoutRetransmitsOrFails := by
  refine ⟨fun s h ha => ⟨fun hzero hleft => ?_, fun hzero hlast => ?_, fun hwait => ?_⟩, fun s h hidle => ?_,
    fun s p r rssi h hp => ?_⟩
  · have hcheck := timeoutCheck_of_attempts_left (s := s.callFrameReady) ha hzero hleft
    rw [State.handle, iterate_of_hearsNothing h, hcheck, callFrameReady_of_hearsNothing h]
    simp only [List.append_assoc, List.cons_append, List.nil_append]
  · have hcheck := timeoutCheck_of_no_attempt_left (s := s.callFrameReady) ha hzero hlast
    rw [State.handle, iterate_of_hearsNothing h, hcheck, failSend_eq, callFrameReady_of_hearsNothing h]
  · have hcheck := timeoutCheck_of_not_expired (s := s.callFrameReady) (Or.inr hwait)
    rw [State.handle, iterate_of_hearsNothing h, hcheck, callFrameReady_of_hearsNothing h]
  · have hcheck := timeoutCheck_of_not_expired (s := s.callFrameReady) (Or.inl hidle)
    rw [State.handle, iterate_of_hearsNothing h, hcheck, callFrameReady_of_hearsNothing h]
  · obtain ⟨-, hiter⟩ := poll_of_hears s r rssi h
    rw [State.handle, hiter, hp]
    refine ⟨fun ha hzero hleft => ?_, fun ha hzero hlast => ?_, fun hquiet => ?_⟩
    · rw [timeoutCheck_of_attempts_left ha hzero hleft]
    · rw [timeoutCheck_of_no_attempt_left ha hzero hlast, failSend_eq]
    · rw [timeoutCheck_of_not_expired hquiet]

/-! ### The image taken -/

@[simp] theorem accepts_tookImage (s : State) (a : Byte) : s.tookImage.accepts a = s.accepts a := by
  simp [State.accepts, State.tookImage]

@[simp] theorem isDuplicate_tookImage (s : State) (f : Frame) : s.tookImage.isDuplicate f = s.isDuplicate f := by
  simp [State.isDuplicate, State.peerAt, State.tookImage]

/-- Noting a reading does not look at the calls and the answers by which the image was taken (44_receive.md R264). -/
theorem noteRssi_tookImage (a : Byte) (rssi : Rssi) (s : State) :
    s.tookImage.noteRssi a rssi =
      { s.noteRssi a rssi with trace := s.tookImage.trace, trx := s.tookImage.trx } := by
  simp [noteRssi_eq, State.tookImage, State.peerAt]

/-- The calls after those by which a poll takes an image (44_receive.md R260, R263). -/
theorem tookImage_trace_append (s : State) (calls : List TrxCall) :
    s.tookImage.trace ++ calls = s.trace ++ .frameReady :: .receiveRaw :: calls := by
  simp [State.tookImage]

/-- Taking an image and restoring receive mode is three calls and two answers (44_receive.md R263). -/
theorem tookImage_callSetMode (s : State) :
    s.tookImage.callSetMode .receive =
      { s.tookImage with trace := s.trace ++ [.frameReady, .receiveRaw, .setMode .receive] } := by
  rw [← tookImage_trace_append]
  rfl

/-- Setting the mode goes on from the calls made (10_state.md R46). -/
theorem callSetMode_of_calls (m : TrxMode) (calls : List TrxCall) (trx : Transceiver) (s : State) :
    State.callSetMode m { s with trace := calls, trx := trx } = { s with trace := calls ++ [.setMode m], trx := trx } :=
  rfl

/-! ### Dropped images -/

/-- A poll that hears an image that does not decode (44_receive.md R263). -/
theorem poll_of_hears_error {s : State} {e : DecodeError} {rssi : Rssi} (h : s.hears (.error e) rssi) :
    s.poll = { s.tookImage with
      tel := (s.countDrop e).tel
      trace := s.trace ++ [.frameReady, .receiveRaw, .setMode .receive] } := by
  have hdrop : s.tookImage.countDrop e = { s.tookImage with tel := (s.countDrop e).tel } := by cases e <;> rfl
  have hout : s.tookImage.rxOutcome (.error e) rssi = s.tookImage.countDrop e := rfl
  rw [(poll_of_hears s _ rssi h).1, hout, hdrop, ← tookImage_trace_append]
  rfl

/-- A poll that hears a frame that the filter rejects (44_receive.md R263). -/
theorem poll_of_hears_rejected {s : State} {f : Frame} {rssi : Rssi} (h : s.hears (.frame f) rssi)
    (hrej : s.accepts f.toAddr = false) :
    s.poll = { s.tookImage with trace := s.trace ++ [.frameReady, .receiveRaw, .setMode .receive] } := by
  have hout : s.tookImage.rxOutcome (.frame f) rssi = s.tookImage := if_neg (by simp [hrej])
  rw [(poll_of_hears s _ rssi h).1, hout, tookImage_callSetMode]

/-- Settles O46: the counter of each error, and the rejected frame. -/
theorem droppedImages : Obligations.DroppedImages :=
  fun _ _ => ⟨poll_of_hears_error, poll_of_hears_error, poll_of_hears_error, fun _ => poll_of_hears_rejected⟩

/-! ### Accepted frames -/

/-- A poll that hears an accepted frame notes its reading and takes the protocol step (44_receive.md R263 to R265). -/
theorem poll_of_hears_accepted {s : State} {f : Frame} {rssi : Rssi} (h : s.hears (.frame f) rssi)
    (hacc : s.accepts f.toAddr = true) :
    s.poll = ((s.tookImage.noteRssi f.fromAddr rssi).manage f rssi).callSetMode .receive := by
  have hout : s.tookImage.rxOutcome (.frame f) rssi = (s.tookImage.noteRssi f.fromAddr rssi).manage f rssi :=
    if_pos (by simp [hacc])
  rw [(poll_of_hears s _ rssi h).1, hout]

/-- The calls of the protocol step: an ACK for an eligible data frame, and none otherwise (44_receive.md R265, R267,
R269). -/
theorem manage_trace (f : Frame) (rssi : Rssi) (s : State) :
    (s.manage f rssi).trace = s.trace ++
      if ackFlag f.flags = false ∧ ackEligible f = true then [.transmitRaw (s.ackImage f.fromAddr f.id)] else [] := by
  rcases manage_cases f rssi s with ⟨hack, h⟩ | ⟨hdata, -, helig, h⟩ | ⟨-, -, hno, h⟩ | ⟨hdata, -, helig, h⟩ |
    ⟨-, -, hno, h⟩ <;> rw [h]
  · rw [if_neg (by simp [hack]), List.append_nil]
    rcases ackMatch_cases f s with ⟨-, -, -, hm⟩ | ⟨-, hm⟩ <;> rw [hm]
    rfl
  · rw [if_pos ⟨hdata, helig⟩]
    rfl
  · rw [if_neg (by simp [hno]), List.append_nil]
  · rw [if_pos ⟨hdata, helig⟩, acceptFresh_eq]
    rfl
  · rw [if_neg (by simp [hno]), List.append_nil, acceptFresh_eq]

/-- The calls of a poll that hears an accepted frame (44_receive.md R275). -/
theorem poll_trace_of_hears_accepted {s : State} {f : Frame} {rssi : Rssi} (h : s.hears (.frame f) rssi)
    (hacc : s.accepts f.toAddr = true) :
    s.poll.trace = s.trace ++
      (if ackFlag f.flags = false ∧ ackEligible f = true then
        [.frameReady, .receiveRaw, .transmitRaw (s.ackImage f.fromAddr f.id), .setMode .receive]
      else [.frameReady, .receiveRaw, .setMode .receive] : List TrxCall) := by
  have hnoted : (s.tookImage.noteRssi f.fromAddr rssi).trace = s.tookImage.trace := by
    rw [noteRssi_tookImage]
  have himage : (s.tookImage.noteRssi f.fromAddr rssi).ackImage f.fromAddr f.id = s.ackImage f.fromAddr f.id := by
    simp [State.ackImage, noteRssi_eq, State.tookImage]
  rw [poll_of_hears_accepted h hacc, callSetMode_trace, manage_trace, hnoted, himage, List.append_assoc,
    tookImage_trace_append]
  split <;> rfl

/-- Settles O50: every filter accepts a frame to 0xFF, and no such frame is eligible for an ACK. -/
theorem broadcastIsNeverAcked : Obligations.BroadcastIsNeverAcked := by
  intro s f rssi h hbroad
  have hacc : s.accepts f.toAddr = true := by simp [State.accepts, hbroad, broadcast]
  have hnot : ¬ (ackFlag f.flags = false ∧ ackEligible f = true) :=
    fun ⟨_, helig⟩ => ((ackEligible_iff f).mp helig).1 hbroad
  have htrace := poll_trace_of_hears_accepted h hacc
  rw [if_neg hnot] at htrace
  exact ⟨(transmitted_of_trace_append htrace).trans (List.append_nil _), htrace⟩

/-! ### The calls of one ITERATE -/

/-- The calls of a poll (44_receive.md R275). -/
theorem poll_trace_cases {s : State} (hrun : s.running = true)
    (hstop : s.run.stopReq = true → s.pend.state = .awaitingAck) :
    ∃ received, s.poll.trace = s.trace ++ received ∧
      (received = [.frameReady] ∨ received = [.frameReady, .receiveRaw, .setMode .receive] ∨
        ∃ a i, received = [.frameReady, .receiveRaw, .transmitRaw (s.ackImage a i), .setMode .receive]) := by
  rcases poll_cases s with ⟨-, hp⟩ | ⟨hready, -⟩
  · exact ⟨[.frameReady], by rw [hp]; rfl, Or.inl rfl⟩
  · have h : s.hears (decodeFrame s.cfg s.conf.sync s.callFrameReady.receiveAnswer.1)
        s.callFrameReady.receiveAnswer.2 := ⟨hrun, hstop, hready, rfl, rfl⟩
    cases hr : decodeFrame s.cfg s.conf.sync s.callFrameReady.receiveAnswer.1 with
    | error e => exact ⟨_, by rw [poll_of_hears_error (hr ▸ h)], Or.inr (Or.inl rfl)⟩
    | frame f =>
      rw [hr] at h
      cases hacc : s.accepts f.toAddr with
      | false => exact ⟨_, by rw [poll_of_hears_rejected h hacc], Or.inr (Or.inl rfl)⟩
      | true =>
        refine ⟨_, poll_trace_of_hears_accepted h hacc, ?_⟩
        split
        · exact Or.inr (Or.inr ⟨_, _, rfl⟩)
        · exact Or.inr (Or.inl rfl)

/-- A poll leaves the image of the Pending Send alone (44_receive.md R268). -/
theorem poll_image (s : State) : s.poll.pend.image = s.pend.image := by
  obtain ⟨-, ⟨hp, -⟩ | ⟨-, hp, -⟩⟩ := poll_pend s <;> rw [hp]

/-- Settles O51: at most four calls of the poll and two of the timeout check. -/
theorem callsOfOneIterate : Obligations.CallsOfOneIterate := by
  intro s
  rcases iterate_cases s with ⟨-, h⟩ | ⟨-, -, -, h⟩ | ⟨hrun, hstop, h⟩ <;> rw [h]
  · exact ⟨[], (List.append_nil _).symm, Nat.zero_le 6, Or.inl rfl⟩
  · exact ⟨[.setMode .idle], rfl, by decide, Or.inr (Or.inl rfl)⟩
  · obtain ⟨received, hreceived, hpoll⟩ := poll_trace_cases hrun hstop
    obtain ⟨resent, hresent, hcheck⟩ := timeoutCheck_trace s.poll
    rw [poll_image] at hcheck
    have hfour : received.length ≤ 4 := by
      rcases hpoll with rfl | rfl | ⟨a, i, rfl⟩ <;> simp
    have htwo : resent.length ≤ 2 := by
      rcases hcheck with rfl | rfl <;> simp
    refine ⟨received ++ resent, by rw [hresent, hreceived, List.append_assoc], ?_,
      Or.inr (Or.inr ⟨received, resent, rfl, ?_, hcheck⟩)⟩
    · rw [List.length_append]
      omega
    · exact hpoll.imp_right (Or.imp_right fun ⟨a, i, hack⟩ => ⟨a, i, _, encodeFrame_ack s a i, hack⟩)

/-! ### Data frames -/

/-- What the protocol step makes of a data frame, but for the calls and the answers: a fresh one is accepted, and a
duplicate leaves everything as it is (44_receive.md R265). -/
theorem manage_of_data {f : Frame} (hdata : ackFlag f.flags = false) (rssi : Rssi) (s : State) :
    s.manage f rssi =
      { (if s.isDuplicate f = true then s else s.acceptFresh f rssi) with
        trace := (s.manage f rssi).trace
        trx := (s.manage f rssi).trx } := by
  rcases manage_cases f rssi s with ⟨hack, -⟩ | ⟨-, hdup, -, h⟩ | ⟨-, hdup, -, h⟩ | ⟨-, hfresh, -, h⟩ |
    ⟨-, hfresh, -, h⟩
  · exact absurd (hack.symm.trans hdata) (by decide)
  · rw [h, if_pos hdup]
    rfl
  · rw [h, if_pos hdup]
  · rw [h, if_neg (ne_true_of_eq_false hfresh)]
    rfl
  · rw [h, if_neg (ne_true_of_eq_false hfresh)]

/-- Accepting a fresh frame does not look at the calls and the answers (44_receive.md R265, R271). -/
theorem acceptFresh_of_calls (f : Frame) (rssi : Rssi) (calls : List TrxCall) (trx : Transceiver) (s : State) :
    State.acceptFresh f rssi { s with trace := calls, trx := trx } =
      { s.acceptFresh f rssi with trace := calls, trx := trx } := by
  rcases deliver_cases f rssi s with ⟨hroom, h⟩ | ⟨hfull, h⟩
  · have h' : State.deliver f rssi { s with trace := calls, trx := trx } = _ := if_pos hroom
    rw [acceptFresh_eq, acceptFresh_eq, h, h']
    rfl
  · have h' : State.deliver f rssi { s with trace := calls, trx := trx } = _ := if_neg (Nat.not_lt.mpr hfull)
    rw [acceptFresh_eq, acceptFresh_eq, h, h']
    rfl

/-- What a poll makes of an accepted data frame, but for the calls and the answers: its reading is noted, and a fresh
frame is accepted (44_receive.md R263 to R265). -/
theorem poll_of_hears_data {s : State} {f : Frame} {rssi : Rssi} (h : s.hears (.frame f) rssi)
    (hacc : s.accepts f.toAddr = true) (hdata : ackFlag f.flags = false) :
    s.poll =
      { (if s.isDuplicate f = true then s.noteRssi f.fromAddr rssi
          else (s.noteRssi f.fromAddr rssi).acceptFresh f rssi) with
        trace := s.poll.trace
        trx := s.poll.trx } := by
  have hstep := manage_of_data hdata rssi (s.tookImage.noteRssi f.fromAddr rssi)
  rw [poll_of_hears_accepted h hacc, callSetMode_trace, callSetMode_trx, ← callSetMode_of_calls]
  refine congrArg (State.callSetMode .receive) (hstep.trans ?_)
  rw [isDuplicate_noteRssi, isDuplicate_tookImage, noteRssi_tookImage, acceptFresh_of_calls]
  split <;> rfl

/-- A poll that hears an accepted duplicate (44_receive.md R264 to R266). -/
theorem poll_of_hears_duplicate {s : State} {f : Frame} {rssi : Rssi} (h : s.hears (.frame f) rssi)
    (hacc : s.accepts f.toAddr = true) (hdata : ackFlag f.flags = false) (hdup : s.isDuplicate f = true) :
    s.poll =
      { s with
        peer := s.peer.set f.fromAddr.toNat ⟨true, f.id, true, rssi⟩
        tel := { s.tel with lastRssi := rssi, lastRssiValid := true }
        trace := s.poll.trace
        trx := s.poll.trx } := by
  obtain ⟨hvalid, hid⟩ := (isDuplicate_iff s f).mp hdup
  have hentry : { s.peerAt f.fromAddr with rssi := rssi, rssiValid := true } =
      (⟨true, f.id, true, rssi⟩ : PeerEntry) := by simp only [hvalid, hid]
  refine (poll_of_hears_data h hacc hdata).trans ?_
  rw [if_pos hdup, noteRssi_eq, hentry]

/-- A poll that hears an accepted fresh data frame: both writes to its sender's entry leave one entry (44_receive.md R264
to R266). -/
theorem poll_of_hears_fresh {s : State} {f : Frame} {rssi : Rssi} (h : s.hears (.frame f) rssi)
    (hacc : s.accepts f.toAddr = true) (hdata : ackFlag f.flags = false) (hfresh : s.isDuplicate f = false) :
    s.poll =
      { s with
        peer := s.peer.set f.fromAddr.toNat ⟨true, f.id, true, rssi⟩
        rxq := ((s.noteRssi f.fromAddr rssi).deliver f rssi).rxq
        tel := ((s.noteRssi f.fromAddr rssi).deliver f rssi).tel
        trace := s.poll.trace
        trx := s.poll.trx } := by
  have hentry : (s.noteRssi f.fromAddr rssi).peerAt f.fromAddr =
      { s.peerAt f.fromAddr with rssiValid := true, rssi := rssi } :=
    (peerAt_noteRssi f.fromAddr f.fromAddr rssi s).trans (if_pos rfl)
  have hpeer : (s.noteRssi f.fromAddr rssi).peer.set f.fromAddr.toNat ⟨true, f.id, true, rssi⟩ =
      s.peer.set f.fromAddr.toNat ⟨true, f.id, true, rssi⟩ := Vector.set_set ..
  refine (poll_of_hears_data h hacc hdata).trans ?_
  rw [if_neg (ne_true_of_eq_false hfresh), acceptFresh_eq, hentry, hpeer]
  rfl

/-- What an accepted data frame leaves of the state, fresh or not: its sender's entry, and the rest of the table and the
other registers as they were (44_receive.md R264 to R266). -/
theorem poll_frame_of_hears_data {s : State} {f : Frame} {rssi : Rssi} (h : s.hears (.frame f) rssi)
    (hacc : s.accepts f.toAddr = true) (hdata : ackFlag f.flags = false) :
    s.poll =
      { s with
        peer := s.peer.set f.fromAddr.toNat ⟨true, f.id, true, rssi⟩
        rxq := s.poll.rxq
        tel := s.poll.tel
        trace := s.poll.trace
        trx := s.poll.trx } := by
  cases hdup : s.isDuplicate f with
  | true => rw [poll_of_hears_duplicate h hacc hdata hdup]
  | false => rw [poll_of_hears_fresh h hacc hdata hdup]

/-- Settles O47: the frame and the entry for every data frame, the queue and the counters by freshness and room, and the
calls by eligibility. -/
theorem dataFrameProcessing : Obligations.DataFrameProcessing := by
  intro s f rssi h hacc hdata
  have hframe := poll_frame_of_hears_data h hacc hdata
  refine ⟨?_, fun a => ?_, fun hfresh hroom => ?_, fun hfresh hfull => ?_, fun hdup => ?_, fun helig => ?_,
    fun hno => ?_⟩
  · rw [hframe]
  · rw [← peerAt_setPeer, hframe]
    rfl
  · have hroom' : (s.noteRssi f.fromAddr rssi).rxqCount < (s.noteRssi f.fromAddr rssi).cfg.rxqDepth := hroom
    rw [poll_of_hears_fresh h hacc hdata (eq_false_of_ne_true (mt (isDuplicate_iff s f).mp hfresh)), State.deliver,
      if_pos hroom']
    exact ⟨rfl, rfl⟩
  · have hfull' : ¬ (s.noteRssi f.fromAddr rssi).rxqCount < (s.noteRssi f.fromAddr rssi).cfg.rxqDepth :=
      Nat.not_lt.mpr hfull
    rw [poll_of_hears_fresh h hacc hdata (eq_false_of_ne_true (mt (isDuplicate_iff s f).mp hfresh)), State.deliver,
      if_neg hfull']
    exact ⟨rfl, rfl⟩
  · rw [poll_of_hears_duplicate h hacc hdata ((isDuplicate_iff s f).mpr hdup)]
    exact ⟨rfl, rfl⟩
  · exact ⟨_, encodeFrame_ack s f.fromAddr f.id,
      (poll_trace_of_hears_accepted h hacc).trans (by rw [if_pos ⟨hdata, (ackEligible_iff f).mpr helig⟩])⟩
  · exact (poll_trace_of_hears_accepted h hacc).trans
      (by rw [if_neg fun hack => hno ((ackEligible_iff f).mp hack.2)])

/-! ### A data frame heard twice -/

/-- An iteration that hears an accepted data frame with no send pending is its poll (44_receive.md R260). -/
theorem iterate_of_hears_data {s : State} {f : Frame} {rssi : Rssi} (h : s.hears (.frame f) rssi)
    (hacc : s.accepts f.toAddr = true) (hdata : f.flags.getLsbD 0 = false) (hidle : s.pend.state ≠ .awaitingAck) :
    s.iterate = s.poll ∧ s.poll.pend = s.pend := by
  obtain ⟨hframe, -⟩ := dataFrameProcessing s f rssi h hacc hdata
  have hpend : s.poll.pend = s.pend := by rw [hframe]
  refine ⟨?_, hpend⟩
  rw [(poll_of_hears s _ rssi h).2]
  exact timeoutCheck_of_not_expired (Or.inl (hpend ▸ hidle))

/-- Settles O49: O47 for each of the two polls, the second of which finds the entry that the first one left. -/
theorem duplicateDeliveredOnceAckedTwice : Obligations.DuplicateDeliveredOnceAckedTwice := by
  intro s f r1 r2 h1 h2 hacc hdata hack hunicast hroom hidle hfresh
  obtain ⟨hiter1, hpend⟩ := iterate_of_hears_data h1 hacc hdata hidle
  obtain ⟨hframe, hpeer, hqueued, -, -, hacked1, -⟩ := dataFrameProcessing s f r1 h1 hacc hdata
  obtain ⟨hrxq, htel⟩ := hqueued hfresh hroom
  obtain ⟨ack, henc, htrace1⟩ := hacked1 ⟨hunicast, hack⟩
  have hcfg : s.poll.cfg = s.cfg := by rw [hframe]
  have hconf : s.poll.conf = s.conf := by rw [hframe]
  have hacc2 : s.poll.accepts f.toAddr = true := by rw [State.accepts, hconf]; exact hacc
  have hidle2 : s.poll.pend.state ≠ .awaitingAck := hpend ▸ hidle
  have hentry : s.poll.peerAt f.fromAddr = ⟨true, f.id, true, r1⟩ := (hpeer f.fromAddr).trans (if_pos rfl)
  rw [hiter1] at h2 ⊢
  obtain ⟨hiter2, -⟩ := iterate_of_hears_data h2 hacc2 hdata hidle2
  obtain ⟨-, -, -, -, hskipped, hacked2, -⟩ := dataFrameProcessing s.poll f r2 h2 hacc2 hdata
  obtain ⟨hrxq2, htel2⟩ := hskipped ⟨by rw [hentry], by rw [hentry]⟩
  obtain ⟨ack2, henc2, htrace2⟩ := hacked2 ⟨hunicast, hack⟩
  rw [hcfg, hconf, henc] at henc2
  cases henc2
  rw [hiter2]
  refine ⟨ack, henc, by rw [htel2, htel], by rw [hrxq2, hrxq], ?_⟩
  rw [transmitted_of_trace_append htrace2, transmitted_of_trace_append htrace1, List.append_assoc]
  rfl

/-! ### ACK frames -/

/-- What a poll makes of an accepted ACK frame: its reading is noted, and the frame is matched (44_receive.md R264, R265,
R268). -/
theorem poll_of_hears_ack {s : State} {f : Frame} {rssi : Rssi} (h : s.hears (.frame f) rssi)
    (hacc : s.accepts f.toAddr = true) (hack : ackFlag f.flags = true) :
    s.poll = ((s.tookImage.noteRssi f.fromAddr rssi).ackMatch f).callSetMode .receive := by
  rw [poll_of_hears_accepted h hacc]
  exact congrArg (State.callSetMode .receive) (if_pos hack)

/-- An accepted ACK frame leaves of the entries what its reading makes of them (44_receive.md R264, R268). -/
theorem ackMatch_peer (f : Frame) (s : State) : (s.ackMatch f).peer = s.peer := by
  rcases ackMatch_cases f s with ⟨-, -, -, h⟩ | ⟨-, h⟩ <;> rw [h]
  rfl

/-- Settles O48: the frame matches the pending send or it does not; the reading is noted in both cases. -/
theorem ackFrameProcessing : Obligations.AckFrameProcessing := by
  intro s f rssi h hacc hack noted
  have hpoll := poll_of_hears_ack h hacc hack
  have hpeer : s.poll.peer = (s.noteRssi f.fromAddr rssi).peer := by
    rw [hpoll, callSetMode_peer, ackMatch_peer, noteRssi_tookImage]
  have hnoted : (s.tookImage.noteRssi f.fromAddr rssi).callSetMode .receive = noted := by
    simp only [noted, hpeer, ← tookImage_trace_append, noteRssi_tookImage]
    rfl
  refine ⟨fun a => ?_, fun ha hdest hid => ?_, fun hno => ?_⟩
  · rw [← peerAt_noteRssi, State.peerAt, hpeer]
    rfl
  · have hmatch : (s.tookImage.noteRssi f.fromAddr rssi).ackMatch f =
        ((s.tookImage.noteRssi f.fromAddr rssi).setPState .acked).setSendResult .acked s.pend.id s.pend.attempts :=
      if_pos ⟨ha, hdest, hid⟩
    have hacked : s.poll = { noted with
        pend := { s.pend with state := .acked }
        sendResult := ⟨.acked, s.pend.id, s.pend.attempts⟩ } := by
      rw [hpoll, hmatch, ← hnoted]
      rfl
    have hdone : s.poll.timeoutCheck = s.poll :=
      timeoutCheck_of_not_expired (Or.inl (by rw [hacked]; exact nofun))
    rw [State.handle, (poll_of_hears s _ rssi h).2, hdone, hacked]
  · have hdiscard : (s.tookImage.noteRssi f.fromAddr rssi).ackMatch f = s.tookImage.noteRssi f.fromAddr rssi :=
      if_neg hno
    rw [hpoll, hdiscard, hnoted]

/-! ### Delivery to the host -/

/-- A filled buffer holds the bytes that fit, and 0x00 after them (44_receive.md R270; log 18). -/
theorem read_fillBuffer_within (b : Buffer) (bytes : List Byte) (s : State) (k : Nat) (hwf : Memory.wf s.mem = true)
    (hk : k < b.size) :
    Memory.read (s.fillBuffer b bytes).mem (b.start + k) = if k < bytes.length then byteAt bytes k else 0x00#8 := by
  have hkept : (bytes.take b.size).getD k 0x00#8 = byteAt bytes k := by
    rw [byteAt, List.getD_eq_getElem?_getD, List.getD_eq_getElem?_getD, List.getElem?_take_of_lt hk]
  rw [read_fillBuffer b bytes s _ hwf, if_pos (by omega), Nat.add_sub_cancel_left, hkept]
  split
  next => rfl
  next hend => exact List.getD_eq_default _ _ (Nat.not_lt.mp hend)

/-- Settles O52: RXQ_POP's row is the last of the table, and RXQ_DATA takes the payload of the oldest record. -/
theorem rxqPopCommand : Obligations.RxqPopCommand := by
  refine ⟨wordRuns_encode .rxqPop, othersIllegal_of_mem (r := opcodeTable[12]) (List.getElem_mem _),
    fun s hwf => ⟨fun hempty => ?_, fun rec rest hrxq => ?_⟩⟩
  · simp only [exec, execRxqPop, hempty, State.setResult]
  · refine ⟨(s.fillBuffer .rxqData rec.payload).mem, ?_, fun k hk => ?_, fun a ha => ?_⟩
    · simp only [exec, execRxqPop, hrxq, State.setResult]
      rfl
    · exact read_fillBuffer_within .rxqData rec.payload s k hwf hk
    · exact read_fillBuffer_outside .rxqData rec.payload s a hwf ha

end Sys2Proof.Machine
end

section
/-! The control commands (45_control_telemetry.md section 1): NOP and STOP have one branch each. -/

namespace Sys2Proof.Machine

/-- Settles O30: NOP's row is the first of the table, and the command has one branch. -/
theorem nopCommand : Obligations.NopCommand :=
  ⟨wordRuns_encode .nop, othersIllegal_of_mem (r := opcodeTable[0]) (List.getElem_mem _), fun _ => rfl⟩

/-- Settles O31: STOP's row is the twelfth of the table, and the command has one branch. -/
theorem stopCommand : Obligations.StopCommand :=
  ⟨wordRuns_encode .stop, othersIllegal_of_mem (r := opcodeTable[11]) (List.getElem_mem _), fun _ => rfl⟩

end Sys2Proof.Machine
end

section
/-! Telemetry gates nothing (45_control_telemetry.md R303, R306; 10_state.md R45). Whatever the telemetry holds, a command
hands it on, counting at most one failure in it; and the operations of the polling loop keep alike two states that
differ in telemetry only. -/

namespace Sys2Proof.Machine

/-! ### Other telemetry -/

/-- The state with other telemetry registers and another table PEER. -/
def State.withTelemetry (d : Telemetry) (q : Vector PeerEntry 256) (s : State) : State := { s with tel := d, peer := q }

/-- One failed send counted in the telemetry registers (43_send.md R221, R227). -/
def Telemetry.countFailure (d : Telemetry) : Telemetry := { d with failed := d.failed + 1 }

/-- Two states that differ in the telemetry registers only, the per-peer readings among them. -/
def AgreeButTelemetry (s s' : State) : Prop := s'.withoutTelemetry = s.withoutTelemetry

section
variable (d : Telemetry) (q : Vector PeerEntry 256) (s : State)

@[simp] theorem withTelemetry_cfg : (s.withTelemetry d q).cfg = s.cfg := rfl
@[simp] theorem withTelemetry_conf : (s.withTelemetry d q).conf = s.conf := rfl
@[simp] theorem withTelemetry_rxq : (s.withTelemetry d q).rxq = s.rxq := rfl
@[simp] theorem hdrTo_withTelemetry : (s.withTelemetry d q).hdrTo = s.hdrTo := rfl
@[simp] theorem hdrFrom_withTelemetry : (s.withTelemetry d q).hdrFrom = s.hdrFrom := rfl
@[simp] theorem hdrId_withTelemetry : (s.withTelemetry d q).hdrId = s.hdrId := rfl
@[simp] theorem hdrFlags_withTelemetry : (s.withTelemetry d q).hdrFlags = s.hdrFlags := rfl
@[simp] theorem txPayload_withTelemetry : (s.withTelemetry d q).txPayload = s.txPayload := rfl
@[simp] theorem sendRefusal_withTelemetry : (s.withTelemetry d q).sendRefusal = s.sendRefusal := rfl

/-- A register write commutes with replacing the telemetry: it neither reads nor writes it (20_memory.md R83). -/
theorem storeReg_withTelemetry (r : Reg) (v : Word) :
    (s.withTelemetry d q).storeReg r v = (s.storeReg r v).withTelemetry d q := by
  cases r with
  | bufferWord b m => cases b <;> rfl
  | _ => rfl

theorem tick_withTelemetry : (s.withTelemetry d q).tick = s.tick.withTelemetry d q := by
  simp only [State.tick, apply_ite (State.withTelemetry d q)]
  rfl

/-- RESET gives the telemetry its reset value, whatever it held (10_state.md R48). -/
theorem resetEvent_withTelemetry : (s.withTelemetry d q).resetEvent = s.resetEvent := rfl

end

/-! ### The commands -/

/-- An answer with its next state, if it has one, mapped. -/
def mapNext (f : State → State) : Host.Outcome State Fault Refusal → Host.Outcome State Fault Refusal
  | .next t => .next (f t)
  | .fault r => .fault r
  | .refused r => .refused r

section
variable (d : Telemetry) (q : Vector PeerEntry 256) (s : State)

theorem execEncode_withTelemetry :
    execEncode (s.withTelemetry d q) = mapNext (State.withTelemetry d q) (execEncode s) := by
  simp only [execEncode, withTelemetry_cfg, withTelemetry_conf, hdrTo_withTelemetry, hdrFrom_withTelemetry,
    hdrId_withTelemetry, hdrFlags_withTelemetry, txPayload_withTelemetry]
  cases encodeFrame s.cfg s.conf.sync s.hdrTo s.hdrFrom s.hdrId s.hdrFlags s.txPayload <;> rfl

theorem execSendUnreliable_withTelemetry (dest : Byte) :
    execSendUnreliable dest (s.withTelemetry d q) = mapNext (State.withTelemetry d q) (execSendUnreliable dest s) := by
  simp only [execSendUnreliable, sendRefusal_withTelemetry]
  cases s.sendRefusal <;> rfl

theorem execRxqPop_withTelemetry :
    execRxqPop (s.withTelemetry d q) = mapNext (State.withTelemetry d q) (execRxqPop s) := by
  simp only [execRxqPop, withTelemetry_rxq]
  cases s.rxq <;> rfl

end

/-- An accepted SEND_RELIABLE hands the telemetry on; with no transmission allowed it counts a failure in it (43_send.md
R221). -/
theorem acceptReliable_withTelemetry (dest maxRetries : Byte) (s : State) :
    ∃ k, (k = id ∨ k = Telemetry.countFailure) ∧
      ∀ d q, (s.withTelemetry d q).acceptReliable dest maxRetries =
        (s.acceptReliable dest maxRetries).withTelemetry (k d) q := by
  unfold State.acceptReliable
  by_cases hdest : dest = broadcast
  · simp only [if_pos hdest]
    exact ⟨id, Or.inl rfl, fun _ _ => rfl⟩
  · by_cases hmax : maxRetries = 0#8
    · simp only [if_neg hdest, if_pos hmax]
      exact ⟨Telemetry.countFailure, Or.inr rfl, fun _ _ => rfl⟩
    · simp only [if_neg hdest, if_neg hmax]
      exact ⟨id, Or.inl rfl, fun _ _ => rfl⟩

/-- A command hands the telemetry and PEER on, whatever they hold; a send command may count a failure (43_send.md R221;
45_control_telemetry.md R303, R306). -/
theorem exec_withTelemetry (i : Instr) (s : State) :
    ∃ k, (k = id ∨ isSendCommand i = true ∧ k = Telemetry.countFailure) ∧
      ∀ d q, exec i (s.withTelemetry d q) = mapNext (State.withTelemetry (k d) q) (exec i s) := by
  cases i with
  | sendReliable dest maxRetries =>
    simp only [exec, execSendReliable, sendRefusal_withTelemetry]
    cases s.sendRefusal with
    | some r => exact ⟨id, Or.inl rfl, fun _ _ => rfl⟩
    | none =>
      obtain ⟨k, hk, haccept⟩ := acceptReliable_withTelemetry dest maxRetries s
      exact ⟨k, hk.imp_right fun hcount => ⟨rfl, hcount⟩, fun d q => congrArg _ (haccept d q)⟩
  | nop => exact ⟨id, Or.inl rfl, fun _ _ => rfl⟩
  | crcInit => exact ⟨id, Or.inl rfl, fun _ _ => rfl⟩
  | crcByte byte => exact ⟨id, Or.inl rfl, fun _ _ => rfl⟩
  | crcCheck => exact ⟨id, Or.inl rfl, fun _ _ => rfl⟩
  | setSync => exact ⟨id, Or.inl rfl, fun _ _ => rfl⟩
  | stop => exact ⟨id, Or.inl rfl, fun _ _ => rfl⟩
  | setAddr self promiscuous =>
    exact ⟨id, Or.inl rfl, fun d q => by simp only [exec, execSetAddr, apply_ite (mapNext _)]; rfl⟩
  | encode => exact ⟨id, Or.inl rfl, fun d q => execEncode_withTelemetry d q s⟩
  | decode => exact ⟨id, Or.inl rfl, fun d q => by simp only [exec, execDecode, apply_ite (mapNext _)]; rfl⟩
  | filter => exact ⟨id, Or.inl rfl, fun d q => by simp only [exec, execFilter, apply_ite (mapNext _)]; rfl⟩
  | sendUnreliable dest => exact ⟨id, Or.inl rfl, fun d q => execSendUnreliable_withTelemetry d q s dest⟩
  | rxqPop => exact ⟨id, Or.inl rfl, fun d q => execRxqPop_withTelemetry d q s⟩

/-- What a command does to the telemetry: it leaves PEER alone and the registers too, or is a send that counts a failure
(45_control_telemetry.md R303). -/
theorem exec_telemetry_cases (i : Instr) (s t : State) (h : exec i s = .next t) :
    t.peer = s.peer ∧
      (t.tel = s.tel ∨ isSendCommand i = true ∧ t.tel = { s.tel with failed := s.tel.failed + 1 }) := by
  obtain ⟨k, hk, hexec⟩ := exec_withTelemetry i s
  have ht : t = t.withTelemetry (k s.tel) s.peer := by
    have hself : exec i s = _ := hexec s.tel s.peer
    rw [h] at hself
    exact Host.Outcome.next.inj hself
  rw [ht]
  exact ⟨rfl, hk.imp (fun hid => congrFun hid s.tel) fun ⟨hi, hcount⟩ => ⟨hi, congrFun hcount s.tel⟩⟩

/-! ### States that agree but for telemetry -/

/-- An operation that hands PEER on turns states that agree into states that agree. -/
theorem agree_withTelemetry {s t : State} {d : Telemetry} {q : Vector PeerEntry 256}
    (hq : q.map PeerEntry.withoutReading = s.peer.map PeerEntry.withoutReading) (ht : t.peer = s.peer) :
    AgreeButTelemetry t (t.withTelemetry d q) :=
  (withoutTelemetry_eq_iff t _).mpr ⟨d, q, rfl, ht ▸ hq⟩

/-- A test that says the same in both states keeps states alike when both its branches do. -/
theorem agree_ite {c c' : Prop} [Decidable c] [Decidable c'] {t t' u u' : State} (hc : c' ↔ c)
    (ht : AgreeButTelemetry t t') (hu : AgreeButTelemetry u u') :
    AgreeButTelemetry (if c then t else u) (if c' then t' else u') := by
  by_cases h : c
  · rw [if_pos h, if_pos (hc.mpr h)]; exact ht
  · rw [if_neg h, if_neg (mt hc.mp h)]; exact hu

section
variable {s s' : State}

/-- States agree exactly when one is the other with other telemetry. -/
theorem AgreeButTelemetry.exists_withTelemetry (h : AgreeButTelemetry s s') :
    ∃ d q, s' = s.withTelemetry d q ∧ q.map PeerEntry.withoutReading = s.peer.map PeerEntry.withoutReading :=
  (withoutTelemetry_eq_iff s s').mp h

/-- A command run in states that agree leads to states that agree (45_control_telemetry.md R306). -/
theorem AgreeButTelemetry.exec (h : AgreeButTelemetry s s') {i : Instr} {t : State} (ht : exec i s = .next t) :
    ∃ t', Machine.exec i s' = .next t' ∧ AgreeButTelemetry t t' := by
  obtain ⟨d, q, rfl, hq⟩ := h.exists_withTelemetry
  obtain ⟨k, -, hexec⟩ := exec_withTelemetry i s
  refine ⟨t.withTelemetry (k d) q, ?_, agree_withTelemetry hq (exec_telemetry_cases i s t ht).1⟩
  rw [hexec, ht, mapNext]

theorem AgreeButTelemetry.storeReg (h : AgreeButTelemetry s s') (r : Reg) (v : Word) :
    AgreeButTelemetry (s.storeReg r v) (s'.storeReg r v) := by
  obtain ⟨d, q, rfl, hq⟩ := h.exists_withTelemetry
  rw [storeReg_withTelemetry]
  exact agree_withTelemetry hq (by rw [storeReg_frame])

theorem AgreeButTelemetry.tick (h : AgreeButTelemetry s s') : AgreeButTelemetry s.tick s'.tick := by
  obtain ⟨d, q, rfl, hq⟩ := h.exists_withTelemetry
  rw [tick_withTelemetry]
  exact agree_withTelemetry hq (by rw [tick_frame])

theorem AgreeButTelemetry.timeoutCheck (h : AgreeButTelemetry s s') :
    AgreeButTelemetry s.timeoutCheck s'.timeoutCheck := by
  obtain ⟨d, q, rfl, hq⟩ := h.exists_withTelemetry
  have hretransmit : AgreeButTelemetry s.retransmit (s.withTelemetry d q).retransmit := agree_withTelemetry hq rfl
  have hfail : AgreeButTelemetry s.failSend (s.withTelemetry d q).failSend := agree_withTelemetry hq rfl
  exact agree_ite Iff.rfl (agree_ite Iff.rfl hretransmit hfail) h

/-! ### The receive engine -/

theorem AgreeButTelemetry.ackMatch (h : AgreeButTelemetry s s') (f : Frame) :
    AgreeButTelemetry (s.ackMatch f) (s'.ackMatch f) := by
  obtain ⟨d, q, rfl, hq⟩ := h.exists_withTelemetry
  exact agree_ite Iff.rfl (agree_withTelemetry hq rfl) h

theorem AgreeButTelemetry.deliver (h : AgreeButTelemetry s s') (f : Frame) (rssi : Rssi) :
    AgreeButTelemetry (s.deliver f rssi) (s'.deliver f rssi) := by
  obtain ⟨d, q, rfl, hq⟩ := h.exists_withTelemetry
  exact agree_ite Iff.rfl (agree_withTelemetry hq rfl) (agree_withTelemetry hq rfl)

/-- Entries that differ in their readings only may be written to states that agree (10_state.md R39, R45). -/
theorem AgreeButTelemetry.setPeer (h : AgreeButTelemetry s s') (a : Byte) {e e' : PeerEntry}
    (he : e'.withoutReading = e.withoutReading) : AgreeButTelemetry (s.setPeer a e) (s'.setPeer a e') := by
  obtain ⟨d, q, rfl, hq⟩ := h.exists_withTelemetry
  refine (withoutTelemetry_eq_iff _ _).mpr ⟨d, q.set a.toNat e', rfl, ?_⟩
  simp only [setPeer_peer, Vector.map_set, hq, he]

theorem AgreeButTelemetry.acceptFresh (h : AgreeButTelemetry s s') (f : Frame) (rssi : Rssi) :
    AgreeButTelemetry (s.acceptFresh f rssi) (s'.acceptFresh f rssi) :=
  (h.deliver f rssi).setPeer f.fromAddr rfl

/-- Whether a frame is a duplicate does not depend on a reading (44_receive.md R266). -/
theorem AgreeButTelemetry.isDuplicate (h : AgreeButTelemetry s s') (f : Frame) :
    s'.isDuplicate f = s.isDuplicate f := by
  obtain ⟨hvalid, hid⟩ := peerAt_of_withoutTelemetry s s' h f.fromAddr
  rw [State.isDuplicate, hvalid, hid, State.isDuplicate]

theorem AgreeButTelemetry.emitAck (h : AgreeButTelemetry s s') (a i : Byte) :
    AgreeButTelemetry (s.emitAck a i) (s'.emitAck a i) := by
  obtain ⟨d, q, rfl, hq⟩ := h.exists_withTelemetry
  exact agree_withTelemetry hq rfl

theorem AgreeButTelemetry.manage (h : AgreeButTelemetry s s') (f : Frame) (rssi : Rssi) :
    AgreeButTelemetry (s.manage f rssi) (s'.manage f rssi) := by
  have htaken : AgreeButTelemetry (if s.isDuplicate f then s else s.acceptFresh f rssi)
      (if s'.isDuplicate f then s' else s'.acceptFresh f rssi) :=
    agree_ite (by rw [h.isDuplicate f]) h (h.acceptFresh f rssi)
  exact agree_ite Iff.rfl (h.ackMatch f) (agree_ite Iff.rfl (htaken.emitAck f.fromAddr f.id) htaken)

/-- Noting a reading keeps states alike (44_receive.md R264). -/
theorem AgreeButTelemetry.noteRssi (h : AgreeButTelemetry s s') (a : Byte) (rssi : Rssi) :
    AgreeButTelemetry (s.noteRssi a rssi) (s'.noteRssi a rssi) := by
  unfold AgreeButTelemetry
  rw [noteRssi_withoutTelemetry, noteRssi_withoutTelemetry, h]

theorem AgreeButTelemetry.rxOutcome (h : AgreeButTelemetry s s') (r : FrameResult) (rssi : Rssi) :
    AgreeButTelemetry (s.rxOutcome r rssi) (s'.rxOutcome r rssi) := by
  cases r with
  | error e => cases e <;> exact h
  | frame f =>
    have haccepts : s'.accepts f.toAddr = s.accepts f.toAddr := by
      obtain ⟨d, q, rfl, -⟩ := h.exists_withTelemetry
      rfl
    exact agree_ite (by rw [haccepts]) ((h.noteRssi f.fromAddr rssi).manage f rssi) h

theorem AgreeButTelemetry.callSetMode (h : AgreeButTelemetry s s') (m : TrxMode) :
    AgreeButTelemetry (s.callSetMode m) (s'.callSetMode m) := by
  obtain ⟨d, q, rfl, hq⟩ := h.exists_withTelemetry
  exact agree_withTelemetry hq rfl

theorem AgreeButTelemetry.rxProcess (h : AgreeButTelemetry s s') (bytes : List Byte) (rssi : Rssi) :
    AgreeButTelemetry (s.rxProcess bytes rssi) (s'.rxProcess bytes rssi) := by
  have hdecode : decodeFrame s'.cfg s'.conf.sync bytes = decodeFrame s.cfg s.conf.sync bytes := by
    obtain ⟨d, q, rfl, -⟩ := h.exists_withTelemetry
    rfl
  unfold State.rxProcess
  rw [hdecode]
  exact (h.rxOutcome _ rssi).callSetMode .receive

/-! ### The polling loop -/

theorem AgreeButTelemetry.poll (h : AgreeButTelemetry s s') : AgreeButTelemetry s.poll s'.poll := by
  obtain ⟨d, q, rfl, hq⟩ := h.exists_withTelemetry
  have hasked : AgreeButTelemetry s.callFrameReady (s.withTelemetry d q).callFrameReady := agree_withTelemetry hq rfl
  have htaken : AgreeButTelemetry s.callFrameReady.callReceiveRaw (s.withTelemetry d q).callFrameReady.callReceiveRaw :=
    agree_withTelemetry hq rfl
  exact agree_ite Iff.rfl (htaken.rxProcess s.callFrameReady.receiveAnswer.1 s.callFrameReady.receiveAnswer.2) hasked

theorem AgreeButTelemetry.iterate (h : AgreeButTelemetry s s') : AgreeButTelemetry s.iterate s'.iterate := by
  obtain ⟨d, q, rfl, hq⟩ := h.exists_withTelemetry
  have hexit : AgreeButTelemetry s.loopExit (s.withTelemetry d q).loopExit := agree_withTelemetry hq rfl
  exact agree_ite Iff.rfl h (agree_ite Iff.rfl hexit h.poll.timeoutCheck)

/-! ### The events -/

theorem AgreeButTelemetry.resetEvent (h : AgreeButTelemetry s s') : AgreeButTelemetry s.resetEvent s'.resetEvent := by
  obtain ⟨d, q, rfl, -⟩ := h.exists_withTelemetry
  exact congrArg State.withoutTelemetry (resetEvent_withTelemetry d q s)

/-- A bus reply given in states that agree keeps them alike (log 9). -/
theorem AgreeButTelemetry.reply (h : AgreeButTelemetry s s') (reply : BusReply) :
    AgreeButTelemetry { s with busReply := reply } { s' with busReply := reply } := by
  obtain ⟨d, q, rfl, hq⟩ := h.exists_withTelemetry
  exact agree_withTelemetry hq rfl

/-- A word written to CMD in states that agree leads to states that agree (30_encoding.md R112). -/
theorem AgreeButTelemetry.executeCommand (h : AgreeButTelemetry s s') {w : Word} {t : State}
    (ht : s.executeCommand w = .next t) : ∃ t', s'.executeCommand w = .next t' ∧ AgreeButTelemetry t t' := by
  cases hw : decode w with
  | command i =>
    rw [executeCommand_of_command hw] at ht ⊢
    exact h.exec ht
  | illegal why =>
    rw [executeCommand_of_illegal hw] at ht ⊢
    cases ht
    obtain ⟨d, q, rfl, hq⟩ := h.exists_withTelemetry
    exact ⟨_, rfl, agree_withTelemetry hq rfl⟩

/-- A host write in states that agree leads to states that agree: where it lands is no matter of telemetry (20_memory.md
R84). -/
theorem AgreeButTelemetry.hostWrite (h : AgreeButTelemetry s s') {addr size : Nat} {v : Word} {t : State}
    (ht : s.hostWrite addr size v = .next t) :
    ∃ t', s'.hostWrite addr size v = .next t' ∧ AgreeButTelemetry t t' := by
  have hlocate : locate s'.cfg addr size = locate s.cfg addr size := by
    obtain ⟨d, q, rfl, -⟩ := h.exists_withTelemetry
    rfl
  simp only [State.hostWrite, hlocate] at ht ⊢
  cases hreg : locate s.cfg addr size with
  | error cause => simp only [hreg, reduceCtorEq] at ht
  | reg r =>
    simp only [hreg] at ht ⊢
    split_ifs at ht ⊢
    · exact (h.reply .written).executeCommand ht
    · cases ht
      exact ⟨_, rfl, (h.reply .written).storeReg r v⟩

/-- An event other than a host read leads from states that agree to states that agree (45_control_telemetry.md R306). -/
theorem AgreeButTelemetry.handle (h : AgreeButTelemetry s s') {e : Event} {t : State}
    (hread : ∀ addr size, e ≠ .hostRead addr size) (ht : s.handle e = .next t) :
    ∃ t', s'.handle e = .next t' ∧ AgreeButTelemetry t t' := by
  cases e with
  | hostWrite addr size v => exact h.hostWrite ht
  | hostRead addr size => exact absurd rfl (hread addr size)
  | tick => cases ht; exact ⟨_, rfl, h.tick⟩
  | iterate => cases ht; exact ⟨_, rfl, h.iterate⟩
  | reset => cases ht; exact ⟨_, rfl, h.resetEvent⟩

end

/-- Settles O54: every event keeps alike what agrees, a command at most counts a failure, and a register write touches
the data registers and the buffers only. -/
theorem telemetryGatesNothing : Obligations.TelemetryGatesNothing := by
  refine ⟨fun _ _ _ _ hread hagree ht => AgreeButTelemetry.handle hagree hread ht, fun i s t ht => ?_,
    fun r v s => ?_⟩
  · obtain ⟨hpeer, htel | ⟨hsend, htel⟩⟩ := exec_telemetry_cases i s t ht
    · exact ⟨hpeer, fun _ => htel, Or.inl htel⟩
    · exact ⟨hpeer, fun hother => absurd (hsend.symm.trans hother) (by decide), Or.inr htel⟩
  · rw [storeReg_frame]
    exact ⟨rfl, rfl⟩

end Sys2Proof.Machine
end

section
/-! Accesses that the bus answers with an error (20_memory.md R84; 60_exceptions.md R324), and the frame of one node
of a channel (60_exceptions.md R334). -/

namespace Sys2Proof.Machine

/-! ### Where the map has no register -/

/-- No single register lies at an aligned offset exactly in the gaps of the map below PEERW (20_memory.md R81). -/
theorem find?_singleRegs_eq_none_iff (off : Nat) (h4 : off % 4 = 0) (hl : off < 0x400) :
    (singleRegs.find? fun e => e.1 == off) = none ↔ UnmappedOffset off := by
  simp only [singleRegs, UnmappedOffset, List.find?_eq_none, List.forall_mem_cons, beq_iff_eq, List.not_mem_nil,
    false_imp_iff, implies_true, and_true]
  omega

/-- The offsets without a register are those that R81 leaves unmapped. -/
theorem regAt_eq_none_iff (off : Nat) (h4 : off % 4 = 0) (hl : off < 4096) :
    regAt off = none ↔ UnmappedOffset off := by
  unfold regAt
  by_cases hsingle : off < 0x400
  · rw [if_pos hsingle, Option.map_eq_none_iff, find?_singleRegs_eq_none_iff off h4 hsingle]
  · rw [if_neg hsingle]
    unfold UnmappedOffset
    split_ifs
    case neg => exact iff_of_true rfl (by omega)
    all_goals exact iff_of_false not_false (by omega)

/-! ### The accesses that fault -/

/-- An access of the window reaches a register exactly when it is 4 bytes wide, aligned and at a mapped offset
(20_memory.md R84). -/
theorem exists_locate_eq_reg_iff (p : Params) (addr size : Nat) (hlo : p.blockBase ≤ addr)
    (hhi : addr < p.blockBase + 4096) :
    (∃ r, locate p addr size = .reg r) ↔
      size = 4 ∧ (addr - p.blockBase) % 4 = 0 ∧ ∃ r, regAt (addr - p.blockBase) = some r := by
  constructor
  · rintro ⟨r, hr⟩
    obtain ⟨-, -, hsize, h4, hreg⟩ := locate_eq_reg p addr size r hr
    exact ⟨hsize, h4, r, hreg⟩
  · rintro ⟨rfl, h4, r, hreg⟩
    have hloc := locate_of_regAt p (addr - p.blockBase) r hreg h4 (by omega)
    rw [Nat.add_sub_cancel' hlo] at hloc
    exact ⟨r, hloc⟩

/-- An access faults exactly when it reaches no register. -/
theorem exists_locate_eq_error_iff (p : Params) (addr size : Nat) :
    (∃ cause, locate p addr size = .error cause) ↔ ¬ ∃ r, locate p addr size = .reg r := by
  cases locate p addr size <;> simp

/-- The three causes of R84 are all there are inside the window. -/
theorem exists_locate_eq_error_iff_of_window (p : Params) (addr size : Nat) (hlo : p.blockBase ≤ addr)
    (hhi : addr < p.blockBase + 4096) :
    (∃ cause, locate p addr size = .error cause) ↔
      size ≠ 4 ∨ (addr - p.blockBase) % 4 ≠ 0 ∨ UnmappedOffset (addr - p.blockBase) := by
  rw [exists_locate_eq_error_iff, exists_locate_eq_reg_iff p addr size hlo hhi, ← Option.ne_none_iff_exists',
    not_and_or, not_and_or, not_ne_iff]
  exact or_congr_right (or_congr_right' fun h4 => regAt_eq_none_iff _ (not_not.mp h4) (by omega))

section
variable {s : State} {addr size : Nat} {cause : BusCause} (h : locate s.cfg addr size = .error cause)
include h

theorem hostRead_of_locate_error : s.handle (.hostRead addr size) = .fault (.busError addr cause) := by
  simp only [State.handle, State.hostRead, h]

theorem hostWrite_of_locate_error (v : Word) :
    s.handle (.hostWrite addr size v) = .fault (.busError addr cause) := by
  simp only [State.handle, State.hostWrite, h]

end

/-- The block after an access that faults: only the bus has answered (60_exceptions.md R324). -/
theorem proceed_of_busError {s : State} {e : Event} {addr : Nat} {cause : BusCause}
    (h : s.handle e = .fault (.busError addr cause)) : s.proceed e = s.afterBusError addr := by
  simp only [State.proceed, h]

/-- Settles O7: inside the window only the causes of R84 keep an access from a register, and an access that reaches none
faults before it does anything. -/
theorem busErrorExactlyOnBadAccess : Obligations.BusErrorExactlyOnBadAccess := by
  refine fun s addr size v hlo hhi =>
    ⟨(exists_locate_eq_error_iff_of_window s.cfg addr size hlo hhi).symm, fun cause hcause => ?_⟩
  have hread := hostRead_of_locate_error hcause
  have hwrite := hostWrite_of_locate_error hcause v
  exact ⟨hread, hwrite, proceed_of_busError hread, proceed_of_busError hwrite⟩

/-! ### The nodes of a channel -/

/-- An event touches only its own node's place in the list of nodes (60_exceptions.md R334). -/
theorem Network.event_nodes_of_ne (net : Network) {j k : Nat} (hne : j ≠ k) (e : Event) :
    (net.event k e).nodes[j]? = net.nodes[j]? :=
  List.getElem?_modify_ne _ _ hne.symm

/-- A delivery touches only the place of the node that hears it (60_exceptions.md R334). -/
theorem Network.deliver_nodes_of_ne (net : Network) {j k : Nat} (hne : j ≠ k) (bytes : List Byte) (rssi : Rssi) :
    (net.deliver k bytes rssi).nodes[j]? = net.nodes[j]? :=
  List.getElem?_modify_ne _ _ hne.symm

/-- Settles O60: each of the two ways to act on a channel rewrites one node's place. -/
theorem nodesShareNoState : Obligations.NodesShareNoState :=
  fun net _ _ e bytes rssi hne => ⟨net.event_nodes_of_ne hne e, net.deliver_nodes_of_ne hne bytes rssi⟩

end Sys2Proof.Machine
end

section
/-! Reset, a failed initialisation, and what a fair environment makes of a pending send (70_reset_and_hazards.md R350,
R351, R355). -/

namespace Sys2Proof.Machine

/-! ### RESET -/

/-- Both outcomes of RESET in one: the reset values with FATAL as `init` answered, and the calls made
(70_reset_and_hazards.md R350, R351). -/
theorem resetEvent_eq (s : State) :
    s.resetEvent =
      { State.cleared s.cfg with
        run := ⟨!s.initAnswer, false, false⟩
        trace := s.trace ++ (if s.initAnswer = true then
          [.init, .setAddress s.cfg.selfReset false, .setMode .receive] else [.init])
        trx := { s.trx with inits := s.trx.inits.tail, answered := s.trx.answered ++ [.init s.initAnswer] }
        events := s.events
        busReply := s.busReply } := by
  cases hinit : s.initAnswer with
  | true => rw [resetEvent_of_init s hinit, List.append_assoc, List.append_assoc]; rfl
  | false => rw [resetEvent_of_not_init s hinit]; rfl

/-- Every entry of PEER is untouched after either outcome of RESET (10_state.md R39, R48). -/
theorem peerAt_resetEvent (s : State) (a : Byte) : s.resetEvent.peerAt a = PeerEntry.empty := by
  rw [resetEvent_eq]
  exact peerAt_afterReset s.cfg a

/-- Settles O56, field by field from `resetEvent_eq`. -/
theorem resetEvent : Obligations.ResetEvent := by
  refine fun s => ⟨s.resetEvent, rfl, ?_⟩
  have hpeer := peerAt_resetEvent s
  rw [resetEvent_eq] at hpeer ⊢
  exact ⟨rfl, rfl, rfl, rfl, rfl, hpeer, rfl, rfl, rfl, rfl, rfl, rfl, rfl, rfl, rfl, fun _ => rfl, rfl, rfl, rfl,
    rfl⟩

/-! ### A block with FATAL set -/

/-- The commands that call the transceiver while the block runs: the two sends and SET_ADDR
(70_reset_and_hazards.md R351). -/
def CallsTransceiver (i : Instr) : Prop :=
  isSendCommand i = true ∨ ∃ self promiscuous, i = .setAddr self promiscuous

/-- The state with another FATAL bit and another trace. -/
def State.withFatalTrace (b : Bool) (calls : List TrxCall) (s : State) : State :=
  { s with run := { s.run with fatal := b }, trace := calls }

section
variable (b : Bool) (calls : List TrxCall) (s : State)

@[simp] theorem withFatalTrace_cfg : (s.withFatalTrace b calls).cfg = s.cfg := rfl
@[simp] theorem withFatalTrace_conf : (s.withFatalTrace b calls).conf = s.conf := rfl
@[simp] theorem withFatalTrace_rxq : (s.withFatalTrace b calls).rxq = s.rxq := rfl
@[simp] theorem hdrTo_withFatalTrace : (s.withFatalTrace b calls).hdrTo = s.hdrTo := rfl
@[simp] theorem hdrFrom_withFatalTrace : (s.withFatalTrace b calls).hdrFrom = s.hdrFrom := rfl
@[simp] theorem hdrId_withFatalTrace : (s.withFatalTrace b calls).hdrId = s.hdrId := rfl
@[simp] theorem hdrFlags_withFatalTrace : (s.withFatalTrace b calls).hdrFlags = s.hdrFlags := rfl
@[simp] theorem txPayload_withFatalTrace : (s.withFatalTrace b calls).txPayload = s.txPayload := rfl

theorem execEncode_withFatalTrace :
    execEncode (s.withFatalTrace b calls) = mapNext (State.withFatalTrace b calls) (execEncode s) := by
  simp only [execEncode, withFatalTrace_cfg, withFatalTrace_conf, hdrTo_withFatalTrace, hdrFrom_withFatalTrace,
    hdrId_withFatalTrace, hdrFlags_withFatalTrace, txPayload_withFatalTrace]
  cases encodeFrame s.cfg s.conf.sync s.hdrTo s.hdrFrom s.hdrId s.hdrFlags s.txPayload <;> rfl

theorem execRxqPop_withFatalTrace :
    execRxqPop (s.withFatalTrace b calls) = mapNext (State.withFatalTrace b calls) (execRxqPop s) := by
  simp only [execRxqPop, withFatalTrace_rxq]
  cases s.rxq <;> rfl

/-- A command that does not call the transceiver neither reads nor writes FATAL and the trace
(45_control_telemetry.md R302). -/
theorem exec_withFatalTrace (i : Instr) (hi : ¬ CallsTransceiver i) :
    exec i (s.withFatalTrace b calls) = mapNext (State.withFatalTrace b calls) (exec i s) := by
  cases i with
  | nop => rfl
  | crcInit => rfl
  | crcByte byte => rfl
  | crcCheck => rfl
  | setAddr self promiscuous => exact absurd (Or.inr ⟨self, promiscuous, rfl⟩) hi
  | setSync => rfl
  | encode => exact execEncode_withFatalTrace b calls s
  | decode => simp only [exec, execDecode, apply_ite (mapNext _)]; rfl
  | filter => simp only [exec, execFilter, apply_ite (mapNext _)]; rfl
  | sendReliable dest maxRetries => exact absurd (Or.inl rfl) hi
  | sendUnreliable dest => exact absurd (Or.inl rfl) hi
  | stop => rfl
  | rxqPop => exact execRxqPop_withFatalTrace b calls s

end

/-- A halted block refuses the commands that call the transceiver (42_filter_config.md R203; 43_send.md R221, R224). -/
theorem exec_of_callsTransceiver {i : Instr} (hi : CallsTransceiver i) {s : State} (hhalted : s.running = false) :
    exec i s = .next { s with cmdResult := .notRunning } := by
  rcases hi with hsend | ⟨self, promiscuous, rfl⟩
  · exact (sendRefusedInOrder s i hsend).1 hhalted
  · exact if_neg (by simp [hhalted])

/-- No command makes a halted block call the transceiver. -/
theorem exec_trace_of_halted {i : Instr} {s t : State} (hhalted : s.running = false) (h : exec i s = .next t) :
    t.trace = s.trace := by
  by_cases hi : CallsTransceiver i
  · rw [exec_of_callsTransceiver hi hhalted] at h
    cases h
    rfl
  · have hsame : exec i s = _ := exec_withFatalTrace s.run.fatal s.trace s i hi
    rw [h, mapNext, Host.Outcome.next.injEq] at hsame
    rw [hsame]
    rfl

theorem iterate_of_halted {s : State} (hhalted : s.running = false) : s.iterate = s := by
  rcases iterate_cases s with ⟨-, h⟩ | ⟨hrun, -⟩ | ⟨hrun, -⟩
  · exact h
  · exact absurd (hrun.symm.trans hhalted) (by decide)
  · exact absurd (hrun.symm.trans hhalted) (by decide)

/-- No event but RESET makes a halted block call the transceiver (44_receive.md R260; 70_reset_and_hazards.md R351). -/
theorem handle_trace_of_halted {e : Event} {s t : State} (hhalted : s.running = false) (h : s.handle e = .next t)
    (hreset : e ≠ .reset) : t.trace = s.trace := by
  rcases handle_cases e s t h with
    ⟨-, -, i, -, -, -, hexec⟩ | ⟨-, -, -, -, -, -, rfl⟩ | ⟨-, -, -, -, -, -, rfl⟩ | ⟨-, -, -, -, rfl⟩ |
    ⟨-, rfl⟩ | ⟨-, rfl⟩ | ⟨he, -⟩
  · exact exec_trace_of_halted (s := { s with busReply := .written }) hhalted hexec
  · rfl
  · rw [storeReg_frame]
  · rfl
  · rw [tick_frame]
  · rw [iterate_of_halted hhalted]
  · exact absurd he hreset

/-- Settles O55: a block with FATAL set is halted, only RESET writes FATAL, and the commands that do not call the
transceiver commute with clearing FATAL. -/
theorem fatalBlock : Obligations.FatalBlock := by
  intro s hfatal
  have hhalted : s.running = false := by simp [State.running, hfatal]
  refine ⟨iterate_of_halted hhalted, fun e t hreset h => ⟨?_, handle_trace_of_halted hhalted h hreset⟩,
    fun i hi => exec_of_callsTransceiver hi hhalted, fun i t hsend hset h => ?_⟩
  · rw [(runBitsWriters e s t h hreset).1, hfatal]
  · have hi : ¬ CallsTransceiver i := by
      rintro (hyes | ⟨self, promiscuous, hyes⟩)
      · exact absurd (hyes.symm.trans hsend) (by decide)
      · exact hset self promiscuous hyes
    have htrace : t.trace = s.trace := exec_trace_of_halted hhalted h
    have hcleared : exec i (s.withFatalTrace false s.trace) = .next (t.withFatalTrace false t.trace) := by
      rw [exec_withFatalTrace false s.trace s i hi, h, mapNext, htrace]
    exact hcleared

/-! ### A pending send in a fair environment -/

/-- What is left of a pending send's waits: the TICKs of the current one, and for each attempt not yet made its
retransmission and its TICKs (43_send.md R225, R226). -/
def State.waitLeft (s : State) : Nat :=
  s.pend.remain.toNat + (s.pend.max.toNat - s.pend.attempts.toNat) * (s.pend.timeout.toNat + 1)

/-- From `s` to `t` the send is resolved, or less is left of its waits. -/
def Nearer (s t : State) : Prop := t.pend.state ≠ .awaitingAck ∨ t.waitLeft < s.waitLeft

/-- What is left is read off the Pending Send. -/
theorem waitLeft_of_pend_eq {s t : State} (h : t.pend = s.pend) : t.waitLeft = s.waitLeft := by
  rw [State.waitLeft, h, State.waitLeft]

/-- A TICK before the end of a wait shortens it (43_send.md R225). -/
theorem tick_nearer {s : State} (ha : s.pend.state = .awaitingAck) (hremain : s.pend.remain ≠ 0#32) :
    Nearer s s.tick := by
  rcases tick_cases s with ⟨-, -, ht⟩ | ⟨hno, -⟩
  · have hone : (s.pend.remain - 1).toNat < s.pend.remain.toNat := by bv_omega
    rw [ht]
    exact Or.inr (Nat.add_lt_add_right hone _)
  · exact absurd ⟨ha, by bv_omega⟩ hno

/-- One more attempt is one retransmission and one wait less that is left (43_send.md R226). -/
theorem waitLeft_after_attempt {s t : State} (hzero : s.pend.remain = 0#32) (hleft : s.pend.attempts < s.pend.max)
    (ht : t.pend = { s.pend with attempts := s.pend.attempts + 1, remain := s.pend.timeout }) :
    t.waitLeft < s.waitLeft := by
  obtain ⟨k, hk⟩ : ∃ k, s.pend.max.toNat = s.pend.attempts.toNat + k + 1 := Nat.exists_eq_add_of_lt hleft
  have hnext : (s.pend.attempts + 1).toNat = s.pend.attempts.toNat + 1 := by bv_omega
  have hbefore : s.pend.max.toNat - s.pend.attempts.toNat = k + 1 := by omega
  have hafter : s.pend.max.toNat - (s.pend.attempts.toNat + 1) = k := by omega
  simp only [State.waitLeft, ht, hzero, hnext, hbefore, hafter, Nat.succ_mul, BitVec.toNat_zero]
  omega

/-- An ITERATE resolves a pending send, or finds it within a wait and leaves it, or makes one more attempt (43_send.md
R226 to R228). -/
theorem iterate_pend_cases {s : State} (hinv : Inv s) (ha : s.pend.state = .awaitingAck) :
    s.iterate.pend.state ≠ .awaitingAck ∨
    (s.pend.remain ≠ 0#32 ∧ s.iterate.pend = s.pend) ∨
    (s.pend.remain = 0#32 ∧ s.pend.attempts < s.pend.max ∧
      s.iterate.pend = { s.pend with attempts := s.pend.attempts + 1, remain := s.pend.timeout }) := by
  rw [iterate_of_running (running_of_awaiting hinv ha) fun _ => ha]
  obtain ⟨-, ⟨hpend, -⟩ | ⟨-, hacked, -⟩⟩ := poll_pend s
  · rcases timeoutCheck_cases s.poll with ⟨-, hzero, hleft, ht⟩ | ⟨-, -, -, ht⟩ | ⟨hwithin, ht⟩ <;> rw [ht]
    · rw [hpend] at hzero hleft
      exact Or.inr (Or.inr ⟨hzero, hleft, by rw [retransmit_eq, hpend, ← ha]⟩)
    · exact Or.inl nofun
    · rw [hpend] at hwithin ⊢
      exact Or.inr (Or.inl ⟨fun hzero => hwithin ⟨ha, hzero⟩, rfl⟩)
  · have hdone : s.poll.pend.state ≠ .awaitingAck := by rw [hacked]; nofun
    rw [timeoutCheck_of_not_expired (Or.inl hdone)]
    exact Or.inl hdone

/-- An ITERATE at the end of a wait resolves the send or makes one more attempt (43_send.md R226 to R228). -/
theorem iterate_nearer {s : State} (hinv : Inv s) (ha : s.pend.state = .awaitingAck) (hzero : s.pend.remain = 0#32) :
    Nearer s s.iterate := by
  rcases iterate_pend_cases hinv ha with hdone | ⟨hwithin, -⟩ | ⟨-, hleft, ht⟩
  · exact Or.inl hdone
  · exact absurd hzero hwithin
  · exact Or.inr (waitLeft_after_attempt hzero hleft ht)

/-- A host access leaves a pending send alone, whether it is done or answered with an error (43_send.md R232;
20_memory.md R84). -/
theorem proceed_pend_of_access {e : Event} {s : State} (ha : s.pend.state = .awaitingAck) (htick : e ≠ .tick)
    (hiter : e ≠ .iterate) (hreset : e ≠ .reset) : (s.proceed e).pend = s.pend := by
  unfold State.proceed
  split
  · rename_i t ht
    exact (handle_access_frame ha ht htick hiter hreset).2.1
  · rfl
  · rfl

/-- No event takes a pending send further from its end (43_send.md R231, R233). -/
theorem proceed_pend_or_nearer (e : Event) {s : State} (hinv : Inv s) (ha : s.pend.state = .awaitingAck) :
    (s.proceed e).pend = s.pend ∨ Nearer s (s.proceed e) := by
  cases e with
  | hostWrite addr size v => exact Or.inl (proceed_pend_of_access ha nofun nofun nofun)
  | hostRead addr size => exact Or.inl (proceed_pend_of_access ha nofun nofun nofun)
  | tick =>
    by_cases hzero : s.pend.remain = 0#32
    · exact Or.inl (congrArg State.pend (if_neg (by simp [hzero])))
    · exact Or.inr (tick_nearer ha hzero)
  | iterate =>
    rcases iterate_pend_cases hinv ha with hdone | ⟨-, hsame⟩ | ⟨hzero, -⟩
    · exact Or.inr (Or.inl hdone)
    · exact Or.inl hsame
    · exact Or.inr (iterate_nearer hinv ha hzero)
  | reset => exact Or.inr (Or.inl (by rw [State.proceed, State.handle, resetEvent_pstate]; decide))

section
variable {s : State} {es : Nat → Event}

theorem afterEvents_inv (hinv : Inv s) (n : Nat) : Inv (State.afterEvents es n s) := by
  induction n with
  | zero => exact hinv
  | succ n ih => exact proceed_keeps_inv (es n) ih

variable (hinv : Inv s) (hpending : ∀ n, (State.afterEvents es n s).pend.state = .awaitingAck)
include hinv hpending

/-- While a send stays pending, it stands as it was or less is left of its waits. -/
theorem afterEvents_pend_or_lt {n m : Nat} (hnm : n ≤ m) :
    (State.afterEvents es m s).pend = (State.afterEvents es n s).pend ∨
      (State.afterEvents es m s).waitLeft < (State.afterEvents es n s).waitLeft := by
  induction m, hnm using Nat.le_induction with
  | base => exact Or.inl rfl
  | succ m _ ih =>
    rcases proceed_pend_or_nearer (es m) (afterEvents_inv hinv m) (hpending m) with hsame | hdone | hless
    · rw [State.afterEvents, waitLeft_of_pend_eq hsame, hsame]
      exact ih
    · exact absurd (hpending (m + 1)) hdone
    · exact Or.inr (hless.trans_le (ih.elim (fun hpend => (waitLeft_of_pend_eq hpend).le) Nat.le_of_lt))

/-- A send that stays pending in a fair environment has ever less left of its waits: a TICK comes within a wait, or an
ITERATE at its end (70_reset_and_hazards.md R355). -/
theorem exists_waitLeft_lt (hfair : FairEvents es) (n : Nat) :
    ∃ m, (State.afterEvents es m s).waitLeft < (State.afterEvents es n s).waitLeft := by
  obtain ⟨m, hnm, hnear⟩ : ∃ m, n ≤ m ∧ ((State.afterEvents es m s).pend = (State.afterEvents es n s).pend →
      Nearer (State.afterEvents es m s) (State.afterEvents es (m + 1) s)) := by
    by_cases hzero : (State.afterEvents es n s).pend.remain = 0#32
    · obtain ⟨m, hnm, hm⟩ := hfair.1 n
      refine ⟨m, hnm, fun hpend => ?_⟩
      rw [State.afterEvents, hm, proceed_iterate]
      exact iterate_nearer (afterEvents_inv hinv m) (hpending m) (hpend ▸ hzero)
    · obtain ⟨m, hnm, hm⟩ := hfair.2 n
      refine ⟨m, hnm, fun hpend => ?_⟩
      rw [State.afterEvents, hm, proceed_tick]
      exact tick_nearer (hpending m) (hpend ▸ hzero)
  rcases afterEvents_pend_or_lt hinv hpending hnm with hpend | hless
  · rcases hnear hpend with hdone | hless
    · exact absurd (hpending (m + 1)) hdone
    · exact ⟨m + 1, hless.trans_eq (waitLeft_of_pend_eq hpend)⟩
  · exact ⟨m, hless⟩

end

/-- Settles O44: a send that stayed pending for ever would have ever less left of its waits, below the least. -/
theorem fairEnvironmentResolvesSend : Obligations.FairEnvironmentResolvesSend := by
  intro s es hinv hfair
  by_contra hnever
  have hpending : ∀ n, (State.afterEvents es n s).pend.state = .awaitingAck :=
    fun n => not_not.mp fun hdone => hnever ⟨n, hdone⟩
  obtain ⟨m, hless⟩ := exists_waitLeft_lt hinv hpending hfair
    (Function.argmin fun n => (State.afterEvents es n s).waitLeft)
  exact Function.not_lt_argmin (fun n => (State.afterEvents es n s).waitLeft) m hless

end Sys2Proof.Machine
end
